-- ==== Sys2Proof/Word.lean ====
section
/-! DEFINITION. Word.lean: the bit-vector types of the core (10_state.md R20 to R28, 30_encoding.md R80, R81). -/

namespace Sys2Proof

/-- An unsigned 8-bit value: a memory cell, a register V0..VF, a timer (R20, R21, R27, R28). -/
abbrev Byte := BitVec 8

/-- An unsigned 16-bit value: an instruction word, PC, I, a call-stack entry (R23, R24, R25, R80). -/
abbrev Word := BitVec 16

/-- A 4-bit register number, the field x or y of a word (R81). -/
abbrev Reg := BitVec 4

/-- A 4-bit field of a word: the class or the row count n (R81). -/
abbrev Nibble := BitVec 4

/-- The 12-bit absolute address nnn of a word (R81, R82). -/
abbrev Addr := BitVec 12

/-- The 64 x 32 grid of single-bit pixels, column first as FB[x][y] is (R29). -/
abbrev Framebuffer := Vector (Vector Bool 32) 64

/-- The 80 bytes of the font table (R32). -/
abbrev Font := Vector Byte 80

end Sys2Proof
end

