-- ==== Sys2Proof/Machine/Flags.lean ====
section
/-! DEFINITION. Machine/Flags.lean: the values VF takes as a flag (43_alu.md R162) and the arithmetic they go with (R163). -/

namespace Sys2Proof.Machine

/-- bool01(c) (R13). -/
def bool01 (c : Bool) : Byte := if c then 1 else 0

/-- The carry of 8xy4: Vx + Vy > 255 (R156). -/
def carryFlag (a b : Byte) : Byte := bool01 (decide (a.toNat + b.toNat > 255))

/-- "1 = no borrow, strict" of 8xy5 and 8xy7: a > b (R157, R159). -/
def greaterFlag (a b : Byte) : Byte := bool01 (decide (a.toNat > b.toNat))

/-- The bit shifted out of 8xy6 (R158). -/
def lowBitFlag (a : Byte) : Byte := a &&& 1

/-- The bit shifted out of 8xyE, normalised to 0 or 1 (R160). -/
def highBitFlag (a : Byte) : Byte := bool01 (a &&& 0x80 != 0)

/-- (a + b) mod 256 (R151, R156, R163). -/
def add8 (a b : Byte) : Byte := a + b

/-- (a - b) mod 256 (R157, R159, R163). -/
def sub8 (a b : Byte) : Byte := a - b

/-- a >> 1, logical (R158, R163). -/
def shr8 (a : Byte) : Byte := a >>> 1

/-- (a << 1) mod 256 (R160, R163). -/
def shl8 (a : Byte) : Byte := a <<< 1

end Sys2Proof.Machine
end

