-- ==== Sys2Proof/Config.lean ====
section
/-! DEFINITION. Config.lean: the open parameters of the core (00_scope.md R6, 92_eei_decisions.md D4, D6, D7) and its free
values (93_implementation_defined.md U17, U18). -/

namespace Sys2Proof

/-- SPRITE_EDGE_MODE (R6, R116, D4). -/
inductive EdgeMode where
  | wrap
  | clip
deriving DecidableEq, Repr

/-- FX18_MODE (R6, R207, D7). -/
inductive Fx18Mode where
  | setSoundTimer
  | decodeError
deriving DecidableEq, Repr

/-- The configuration a core is built with: R6's rows marked OPEN-PARAM. It stands in State so that every statement over
all states holds for every configuration; no step and no host action changes it.
DESIGN CHOICE, log entry 1: safe. -/
structure Params where
  edge : EdgeMode
  fx18 : Fx18Mode
  font : Font
deriving DecidableEq, Repr

/-- The environment byte of the k-th execution of Cxnn (draw_byte() of R11 and R161, D15, U18): a free value, any byte
for each k. DESIGN CHOICE, log entry 3: safe. -/
opaque Config.drawByte (k : Nat) : Byte

/-- The framebuffer before the first clear() (R254, U17): a free value, any value for each pixel.
DESIGN CHOICE, log entry 4: safe. -/
opaque Config.powerOnFramebuffer : Framebuffer

end Sys2Proof
end

