-- ==== Sys2Proof/Machine/Params.lean ====
section
/-! DEFINITION. Machine/Params.lean: the spec's default parameter values (00_scope.md R6, 10_state.md R32) and the power-on
framebuffer. -/

namespace Sys2Proof.Machine

/-- The default FONT of R32, one glyph a line, five bytes top row first. The spec marks the bytes as general knowledge.
DESIGN CHOICE, log entry 2: unsafe for statements about glyph pixels at reset. -/
def fontDefault : Font :=
  #v[0xF0, 0x90, 0x90, 0x90, 0xF0,
     0x20, 0x60, 0x20, 0x20, 0x70,
     0xF0, 0x10, 0xF0, 0x80, 0xF0,
     0xF0, 0x10, 0xF0, 0x10, 0xF0,
     0x90, 0x90, 0xF0, 0x10, 0x10,
     0xF0, 0x80, 0xF0, 0x10, 0xF0,
     0xF0, 0x80, 0xF0, 0x90, 0xF0,
     0xF0, 0x10, 0x20, 0x40, 0x40,
     0xF0, 0x90, 0xF0, 0x90, 0xF0,
     0xF0, 0x90, 0xF0, 0x10, 0xF0,
     0xF0, 0x90, 0xF0, 0x90, 0x90,
     0xE0, 0x90, 0xE0, 0x90, 0xE0,
     0xF0, 0x80, 0x80, 0x80, 0xF0,
     0xE0, 0x90, 0x90, 0x90, 0xE0,
     0xF0, 0x80, 0xF0, 0x80, 0xF0,
     0xF0, 0x80, 0xF0, 0x80, 0x80]

/-- SPRITE_EDGE_MODE's default (R6, D4). -/
def edgeDefault : EdgeMode := .wrap

/-- FX18_MODE's default (R6, D7). -/
def fx18Default : Fx18Mode := .setSoundTimer

/-- The parameter values a core is built with unless it says otherwise (R6). DESIGN CHOICE, log entry 1: safe. -/
def paramsDefault : Params := { edge := edgeDefault, fx18 := fx18Default, font := fontDefault }

/-- The framebuffer a first reset() leaves, which reset() does not touch (R251): any value (R254, U17), log entry 4. -/
def powerOnFramebuffer : Framebuffer := Config.powerOnFramebuffer

end Sys2Proof.Machine
end

