-- ==== Sys2Proof/Syntax.lean ====
section
/-! DEFINITION. Syntax.lean: the instructions, one constructor for each row of spec/opcode_table.json (30_encoding.md R83). -/

namespace Sys2Proof

/-- An instruction with the operand fields of its word (R81, R83). SHR and SHL carry the field y, which is "encoded but
not read" (R158, R160), so that a word and its instruction determine each other. -/
inductive Instr where
  /-- 00E0 CLS (R110). -/
  | cls
  /-- 00EE RET (R130). -/
  | ret
  /-- 0nnn SYS nnn, every class-0 word but 00E0 and 00EE (R131, R84). -/
  | sys (nnn : Addr)
  /-- 1nnn JP nnn (R132). -/
  | jp (nnn : Addr)
  /-- 2nnn CALL nnn (R133). -/
  | call (nnn : Addr)
  /-- 3xnn SE Vx, nn (R134). -/
  | seImm (x : Reg) (nn : Byte)
  /-- 4xnn SNE Vx, nn (R135). -/
  | sneImm (x : Reg) (nn : Byte)
  /-- 5xy0 SE Vx, Vy (R136). -/
  | seReg (x y : Reg)
  /-- 6xnn LD Vx, nn (R150). -/
  | ldImm (x : Reg) (nn : Byte)
  /-- 7xnn ADD Vx, nn (R151). -/
  | addImm (x : Reg) (nn : Byte)
  /-- 8xy0 LD Vx, Vy (R152). -/
  | ldReg (x y : Reg)
  /-- 8xy1 OR Vx, Vy (R153). -/
  | orReg (x y : Reg)
  /-- 8xy2 AND Vx, Vy (R154). -/
  | andReg (x y : Reg)
  /-- 8xy3 XOR Vx, Vy (R155). -/
  | xorReg (x y : Reg)
  /-- 8xy4 ADD Vx, Vy (R156). -/
  | addReg (x y : Reg)
  /-- 8xy5 SUB Vx, Vy (R157). -/
  | sub (x y : Reg)
  /-- 8xy6 SHR Vx, with y encoded but ignored (R158). -/
  | shr (x y : Reg)
  /-- 8xy7 SUBN Vx, Vy (R159). -/
  | subn (x y : Reg)
  /-- 8xyE SHL Vx, with y encoded but ignored (R160). -/
  | shl (x y : Reg)
  /-- 9xy0 SNE Vx, Vy (R137). -/
  | sneReg (x y : Reg)
  /-- Annn LD I, nnn (R180). -/
  | ldI (nnn : Addr)
  /-- Bnnn JP V0, nnn (R138). -/
  | jpV0 (nnn : Addr)
  /-- Cxnn RND Vx, nn (R161). -/
  | rnd (x : Reg) (nn : Byte)
  /-- Dxyn DRW Vx, Vy, n (R111). -/
  | drw (x y : Reg) (n : Nibble)
  /-- Ex9E SKP Vx (R202). -/
  | skp (x : Reg)
  /-- ExA1 SKNP Vx (R203). -/
  | sknp (x : Reg)
  /-- Fx07 LD Vx, DT (R204). -/
  | ldVxDt (x : Reg)
  /-- Fx0A LD Vx, K (R205). -/
  | ldVxK (x : Reg)
  /-- Fx15 LD DT, Vx (R206). -/
  | ldDtVx (x : Reg)
  /-- Fx18 LD ST, Vx (R207). -/
  | ldStVx (x : Reg)
  /-- Fx1E ADD I, Vx (R181). -/
  | addI (x : Reg)
  /-- Fx29 LD F, Vx (R182). -/
  | ldF (x : Reg)
  /-- Fx33 LD B, Vx (R183). -/
  | ldB (x : Reg)
  /-- Fx55 LD [I], Vx (R184). -/
  | ldIndStore (x : Reg)
  /-- Fx65 LD Vx, [I] (R185). -/
  | ldIndLoad (x : Reg)
deriving DecidableEq, Repr

end Sys2Proof
end

