-- ==== Sys2Proof/WellFormed.lean ====
section
/-! DEFINITION. WellFormed.lean: which instructions have a word of their own, under each FX18_MODE (30_encoding.md R84, R85). -/

namespace Sys2Proof

/-- An instruction is well formed under FX18_MODE m when some word decodes to it. Two checks: SYS has neither the word
00E0 nor 00EE, which are CLS and RET (R84), and Fx18 is an instruction only under set_sound_timer (R83, R222). -/
def wellFormed (m : Fx18Mode) : Instr → Bool
  | .sys nnn => nnn != 0x0E0#12 && nnn != 0x0EE#12
  | .ldStVx _ => m == .setSoundTimer
  | .cls | .ret | .jp _ | .call _ | .seImm _ _ | .sneImm _ _ | .seReg _ _ | .ldImm _ _ | .addImm _ _ | .ldReg _ _
  | .orReg _ _ | .andReg _ _ | .xorReg _ _ | .addReg _ _ | .sub _ _ | .shr _ _ | .subn _ _ | .shl _ _ | .sneReg _ _
  | .ldI _ | .jpV0 _ | .rnd _ _ | .drw _ _ _ | .skp _ | .sknp _ | .ldVxDt _ | .ldVxK _ | .ldDtVx _ | .addI _ | .ldF _
  | .ldB _ | .ldIndStore _ | .ldIndLoad _ => true

end Sys2Proof
end

