-- ==== Sys2Proof/Decode.lean ====
section
/-! DEFINITION. Decode.lean: the decoder and the encoder, written from 30_encoding.md R80 to R86. -/

namespace Sys2Proof

/-- opcodeClass := w[15:12] (R81). -/
def fieldClass (w : Word) : Nibble := w.extractLsb' 12 4

/-- x := w[11:8] (R81). -/
def fieldX (w : Word) : Reg := w.extractLsb' 8 4

/-- y := w[7:4] (R81). -/
def fieldY (w : Word) : Reg := w.extractLsb' 4 4

/-- n := w[3:0] (R81). -/
def fieldN (w : Word) : Nibble := w.extractLsb' 0 4

/-- nn := w[7:0] (R81). -/
def fieldNN (w : Word) : Byte := w.extractLsb' 0 8

/-- nnn := w[11:0] (R81). -/
def fieldNNN (w : Word) : Addr := w.extractLsb' 0 12

/-- Class 0: 00E0 and 00EE are CLS and RET, every other word is SYS (R84). -/
def decodeClass0 (nnn : Addr) : Instr :=
  if nnn = 0x0E0#12 then .cls
  else if nnn = 0x0EE#12 then .ret
  else .sys nnn

/-- Class 8: the operation is n; 8, 9, A, B, C, D and F are unknown (R83, R85). -/
def decodeClass8 (x y : Reg) (n : Nibble) : Option Instr :=
  match n with
  | 0x0#4 => some (.ldReg x y)
  | 0x1#4 => some (.orReg x y)
  | 0x2#4 => some (.andReg x y)
  | 0x3#4 => some (.xorReg x y)
  | 0x4#4 => some (.addReg x y)
  | 0x5#4 => some (.sub x y)
  | 0x6#4 => some (.shr x y)
  | 0x7#4 => some (.subn x y)
  | 0xE#4 => some (.shl x y)
  | _ => none

/-- Class E: the operation is nn; every nn but 9E and A1 is unknown (R83, R85). -/
def decodeClassE (x : Reg) (nn : Byte) : Option Instr :=
  match nn with
  | 0x9E#8 => some (.skp x)
  | 0xA1#8 => some (.sknp x)
  | _ => none

/-- Class F: the operation is nn; Fx18 is an instruction only under set_sound_timer (R83, R85, R222). -/
def decodeClassF (m : Fx18Mode) (x : Reg) (nn : Byte) : Option Instr :=
  match nn with
  | 0x07#8 => some (.ldVxDt x)
  | 0x0A#8 => some (.ldVxK x)
  | 0x15#8 => some (.ldDtVx x)
  | 0x18#8 => if m = .setSoundTimer then some (.ldStVx x) else none
  | 0x1E#8 => some (.addI x)
  | 0x29#8 => some (.ldF x)
  | 0x33#8 => some (.ldB x)
  | 0x55#8 => some (.ldIndStore x)
  | 0x65#8 => some (.ldIndLoad x)
  | _ => none

/-- Decoding "is by opcodeClass, then by the fields the class uses" (R83 to R86). Every word is decoded; `none` is the
spec's unknown opcode, which the step reports as a decode error (R221). A nibble has no value past 0xF, so the last line
is never reached. -/
def decode (m : Fx18Mode) (w : Word) : Option Instr :=
  match fieldClass w with
  | 0x0#4 => some (decodeClass0 (fieldNNN w))
  | 0x1#4 => some (.jp (fieldNNN w))
  | 0x2#4 => some (.call (fieldNNN w))
  | 0x3#4 => some (.seImm (fieldX w) (fieldNN w))
  | 0x4#4 => some (.sneImm (fieldX w) (fieldNN w))
  | 0x5#4 => if fieldN w = 0#4 then some (.seReg (fieldX w) (fieldY w)) else none
  | 0x6#4 => some (.ldImm (fieldX w) (fieldNN w))
  | 0x7#4 => some (.addImm (fieldX w) (fieldNN w))
  | 0x8#4 => decodeClass8 (fieldX w) (fieldY w) (fieldN w)
  | 0x9#4 => if fieldN w = 0#4 then some (.sneReg (fieldX w) (fieldY w)) else none
  | 0xA#4 => some (.ldI (fieldNNN w))
  | 0xB#4 => some (.jpV0 (fieldNNN w))
  | 0xC#4 => some (.rnd (fieldX w) (fieldNN w))
  | 0xD#4 => some (.drw (fieldX w) (fieldY w) (fieldN w))
  | 0xE#4 => decodeClassE (fieldX w) (fieldNN w)
  | 0xF#4 => decodeClassF m (fieldX w) (fieldNN w)
  | _ => none

/-- The word of two consecutive bytes, big-endian: the byte at the lower address is bits 15..8 (R61, R80). -/
def wordOfBytes (first second : Byte) : Word := first ++ second

/-- The two bytes of a word in address order (R61). -/
def bytesOfWord (w : Word) : List Byte := [w.extractLsb' 8 8, w.extractLsb' 0 8]

/-- Decoding from bytes: "A decoder always consumes exactly 2 bytes" (R80); the rest of the list is returned. -/
def decodeBytes (m : Fx18Mode) : List Byte → Option (Instr × List Byte)
  | first :: second :: rest => (decode m (wordOfBytes first second)).map fun i => (i, rest)
  | _ => none

/-- What the decoder reads, under the default FX18_MODE, from an instruction whose word has the low nbits bits of w; the
bits above them are zero. -/
def decodeTableWord (nbits w : Nat) : Option Instr :=
  (decodeBytes Machine.fx18Default (bytesOfWord (BitVec.ofNat 16 (w % 2 ^ nbits)))).map Prod.fst

/-- The word of an instruction, from the patterns of R83. SYS 0E0 and SYS 0EE are not well formed: their words are CLS
and RET. -/
def encode : Instr → Word
  | .cls => 0x00E0#16
  | .ret => 0x00EE#16
  | .sys nnn => 0x0#4 ++ nnn
  | .jp nnn => 0x1#4 ++ nnn
  | .call nnn => 0x2#4 ++ nnn
  | .seImm x nn => 0x3#4 ++ x ++ nn
  | .sneImm x nn => 0x4#4 ++ x ++ nn
  | .seReg x y => 0x5#4 ++ x ++ y ++ 0x0#4
  | .ldImm x nn => 0x6#4 ++ x ++ nn
  | .addImm x nn => 0x7#4 ++ x ++ nn
  | .ldReg x y => 0x8#4 ++ x ++ y ++ 0x0#4
  | .orReg x y => 0x8#4 ++ x ++ y ++ 0x1#4
  | .andReg x y => 0x8#4 ++ x ++ y ++ 0x2#4
  | .xorReg x y => 0x8#4 ++ x ++ y ++ 0x3#4
  | .addReg x y => 0x8#4 ++ x ++ y ++ 0x4#4
  | .sub x y => 0x8#4 ++ x ++ y ++ 0x5#4
  | .shr x y => 0x8#4 ++ x ++ y ++ 0x6#4
  | .subn x y => 0x8#4 ++ x ++ y ++ 0x7#4
  | .shl x y => 0x8#4 ++ x ++ y ++ 0xE#4
  | .sneReg x y => 0x9#4 ++ x ++ y ++ 0x0#4
  | .ldI nnn => 0xA#4 ++ nnn
  | .jpV0 nnn => 0xB#4 ++ nnn
  | .rnd x nn => 0xC#4 ++ x ++ nn
  | .drw x y n => 0xD#4 ++ x ++ y ++ n
  | .skp x => 0xE#4 ++ x ++ 0x9E#8
  | .sknp x => 0xE#4 ++ x ++ 0xA1#8
  | .ldVxDt x => 0xF#4 ++ x ++ 0x07#8
  | .ldVxK x => 0xF#4 ++ x ++ 0x0A#8
  | .ldDtVx x => 0xF#4 ++ x ++ 0x15#8
  | .ldStVx x => 0xF#4 ++ x ++ 0x18#8
  | .addI x => 0xF#4 ++ x ++ 0x1E#8
  | .ldF x => 0xF#4 ++ x ++ 0x29#8
  | .ldB x => 0xF#4 ++ x ++ 0x33#8
  | .ldIndStore x => 0xF#4 ++ x ++ 0x55#8
  | .ldIndLoad x => 0xF#4 ++ x ++ 0x65#8

end Sys2Proof
end

