-- ==== Sys2Proof/Machine/State.lean ====
section
/-! DEFINITION. Machine/State.lean: every piece of state the spec gives the core (10_state.md), the reasons a step can stop,
and the state after reset (70_reset_and_hazards.md R250 to R252). -/

namespace Sys2Proof.Machine

/-- The values of FAULT (R31, R220). -/
inductive FaultCause where
  | none
  | stackOverflow
  | stackUnderflow
deriving DecidableEq, Repr

/-- One entry of the report output (R36, R221, R224). -/
inductive Report where
  | decodeError (pc word : Word)
  | fault (cause : FaultCause) (pc word : Word)
deriving DecidableEq, Repr

/-- Why a step has no next state. -/
inductive Fault where
  /-- Raised by `step` alone, when FAULT is not NONE: the core "takes no step" until reset() (R104, R107). Safe: nothing
  past the fault can be proved. Log entry 9. -/
  | halted (cause : FaultCause)
deriving DecidableEq, Repr

/-- What the model has no transition for. -/
inductive Refusal where
  /-- An instruction rejected by name in `exec`. Safe. No arm uses it. -/
  | notModelled (mnemonic : String)
  /-- Raised by `loadProgram` alone, for more than 3584 bytes: "a model refuses it" (R253, D18, U15). Safe. Log entry 8. -/
  | programTooLong (length : Nat)
deriving DecidableEq, Repr

/-- The architectural state (10_state.md). -/
structure State where
  /-- M (R20): the cells that differ from `Memory.unlisted`, by rising address. -/
  mem : List Host.Cell
  /-- V0..VF (R21). -/
  v : Vector Byte 16
  /-- I (R23). -/
  i : Word
  /-- PC (R24). -/
  pc : Word
  /-- S[0..15] (R25). -/
  stack : Vector Word 16
  /-- SP, an integer 0..16 (R26). -/
  sp : Fin 17
  /-- DT (R27). -/
  dt : Byte
  /-- ST (R28). -/
  st : Byte
  /-- FB (R29). -/
  fb : Framebuffer
  /-- Key[0..15] (R30). -/
  keys : Vector Bool 16
  /-- FAULT (R31). -/
  fault : FaultCause
  /-- FAULT_PC (R31). -/
  faultPc : Word
  /-- FAULT_WORD (R31). -/
  faultWord : Word
  /-- The report output, oldest first (R36). -/
  reports : List Report
  /-- The configuration (R6), which nothing writes. Log entry 1. -/
  params : Params
  /-- The model's own: how many environment bytes have been drawn (R11, R161). Log entry 3. -/
  draws : Nat
deriving DecidableEq, Repr

/-- The core right after its first reset() (R250 to R252, R33): memory lists nothing, which is FONT and zeros. The
framebuffer is the power-on one (log entry 4), every key is released (log entry 5), no report has been made (log entry 6). -/
def State.reset : State where
  mem := []
  v := Vector.replicate 16 0
  i := 0
  pc := 0x200
  stack := Vector.replicate 16 0
  sp := 0
  dt := 0
  st := 0
  fb := powerOnFramebuffer
  keys := Vector.replicate 16 false
  fault := .none
  faultPc := 0
  faultWord := 0
  reports := []
  params := paramsDefault
  draws := 0

end Sys2Proof.Machine
end

