-- ==== Sys2Proof/Machine/Ops.lean ====
section
/-! DEFINITION. Machine/Ops.lean: the named operations over memory, registers, framebuffer, call stack, timers and the report
output, with the part every step shares (40_step.md) and taking a fault (60_exceptions.md R224). -/

namespace Sys2Proof.Machine

/-! ### Memory (10_state.md R20, 20_memory.md, 00_scope.md R10) -/

/-- MEM_SIZE (R6, R20). -/
def memSize : Nat := 4096

/-- What a cell that nothing has written reads as, which is its reset content: FONT at 0x000..0x04F, zero above (R32, R33). -/
def Memory.unlisted (font : Font) (a : Nat) : Byte := font[a]?.getD 0

/-- The byte listed for cell a, if any. -/
def Memory.lookup (a : Nat) : List Host.Cell → Option Byte
  | [] => none
  | (k, b) :: m => if k = a then some b else Memory.lookup a m

/-- Cell a of the memory. -/
def Memory.read (font : Font) (m : List Host.Cell) (a : Nat) : Byte := (Memory.lookup a m).getD (Memory.unlisted font a)

/-- List byte b for cell a, at its place by address. -/
def Memory.put (a : Nat) (b : Byte) : List Host.Cell → List Host.Cell
  | [] => [(a, b)]
  | (k, c) :: m =>
    if a < k then (a, b) :: (k, c) :: m
    else if k = a then (a, b) :: m
    else (k, c) :: Memory.put a b m

/-- List nothing for cell a. -/
def Memory.drop (a : Nat) (m : List Host.Cell) : List Host.Cell := m.filter fun c => c.1 != a

/-- Store b in cell a, keeping the canonical form. -/
def Memory.write (font : Font) (m : List Host.Cell) (a : Nat) (b : Byte) : List Host.Cell :=
  if b = Memory.unlisted font a then Memory.drop a m else Memory.put a b m

/-- The canonical form: addresses strictly rising, each below MEM_SIZE, no cell listed with what it would read as anyway. -/
abbrev Memory.wf (font : Font) (m : List Host.Cell) : Prop :=
  m.Pairwise (fun c d => c.1 < d.1) ∧ ∀ c ∈ m, c.1 < memSize ∧ c.2 ≠ Memory.unlisted font c.1

/-- MemRead(addr, 1): addr is any natural number and "only its low 12 bits select the cell" (R10). -/
def State.memRead (s : State) (addr : Nat) : Byte := Memory.read s.params.font s.mem (addr % memSize)

/-- MemWrite(addr, 1, b) (R10). -/
def State.memWrite (s : State) (addr : Nat) (b : Byte) : State :=
  { s with mem := Memory.write s.params.font s.mem (addr % memSize) b }

/-! ### Registers (10_state.md R21 to R28) -/

/-- V[x] (R9, R21). -/
def State.reg (s : State) (x : Reg) : Byte := s.v[x.toNat]

/-- V[x] <- b (R9, R21). -/
def State.setReg (s : State) (x : Reg) (b : Byte) : State := { s with v := s.v.set x.toNat b }

/-- VF, the register 0xF, which six instructions write as a flag (R22, R162). -/
def vf : Reg := 0xF#4

/-- I <- w (R23). -/
def State.setI (s : State) (w : Word) : State := { s with i := w }

/-- PC <- w (R24). -/
def State.setPc (s : State) (w : Word) : State := { s with pc := w }

/-- DT <- b (R27). -/
def State.setDt (s : State) (b : Byte) : State := { s with dt := b }

/-- ST <- b (R28). -/
def State.setSt (s : State) (b : Byte) : State := { s with st := b }

/-! ### Framebuffer (10_state.md R29) -/

/-- FB[x][y]. -/
def Framebuffer.pixel (fb : Framebuffer) (x : Fin 64) (y : Fin 32) : Bool := fb[x][y]

/-- FB[x][y] <- FB[x][y] ^ 1. -/
def Framebuffer.flip (fb : Framebuffer) (x : Fin 64) (y : Fin 32) : Framebuffer :=
  fb.set x (fb[x].set y (!fb[x][y]))

/-- Every pixel 0 (R110). -/
def Framebuffer.blank : Framebuffer := Vector.replicate 64 (Vector.replicate 32 false)

/-- The pixel at column x and row y (R29). -/
def State.pixel (s : State) (x : Fin 64) (y : Fin 32) : Bool := Framebuffer.pixel s.fb x y

/-- FB <- fb. -/
def State.setFb (s : State) (fb : Framebuffer) : State := { s with fb := fb }

/-! ### Call stack (10_state.md R25, R26) -/

/-- S[SP] <- w; SP <- SP + 1 (R133); none when SP = 16. -/
def State.push (s : State) (w : Word) : Option State :=
  if h : s.sp.val < 16 then
    some { s with stack := s.stack.set s.sp.val w, sp := ⟨s.sp.val + 1, Nat.succ_lt_succ h⟩ }
  else none

/-- SP <- SP - 1, with the entry S[SP] it leaves behind, which keeps its value (R130); none when SP = 0. -/
def State.pop (s : State) : Option (Word × State) :=
  if h : 0 < s.sp.val then
    some (s.stack[s.sp.val - 1]'(by omega), { s with sp := ⟨s.sp.val - 1, by omega⟩ })
  else none

/-! ### The step's common part (40_step.md R100 to R102) -/

/-- The word at PC, big-endian, through two byte reads (R100, R61). -/
def State.fetchWord (s : State) : Word := wordOfBytes (s.memRead s.pc.toNat) (s.memRead (s.pc.toNat + 1))

/-- One tick of a timer: decrement it if nonzero (R102). -/
def tick (t : Byte) : Byte := if t = 0 then 0 else t - 1

/-- The pre-increment and the timer tick every step makes before its instruction's own effect (R101, R102). Each meaning
starts from this state. -/
def State.advance (s : State) : State := { s with pc := s.pc + 2, dt := tick s.dt, st := tick s.st }

/-- A taken skip: 2 more on the already-advanced PC (R106). -/
def State.skipIf (s : State) (c : Bool) : State := if c then s.setPc (s.pc + 2) else s

/-! ### Reports and faults (60_exceptions.md R220 to R225) -/

/-- The cause codes of R220. -/
def faultCode : FaultCause → Nat
  | .none => 0
  | .stackOverflow => 1
  | .stackUnderflow => 2

/-- Append to the report output (R36). -/
def State.addReport (s : State) (r : Report) : State := { s with reports := s.reports ++ [r] }

/-- The whole step of an unknown word read in state s: the common part, then DecodeError(pc0, word), "and changes nothing
else" (R103, R221). -/
def State.unknownWord (s : State) (word : Word) : State := s.advance.addReport (.decodeError s.pc word)

/-- raise Fault(cause) in the step of `word` begun in state s, the fault mechanism of R224: s itself, since every effect of
the step is discarded, with the three fault fields set and a Fault report appended. The only way back is the host's
reset() (R229). -/
def State.raiseFault (s : State) (cause : FaultCause) (word : Word) : State :=
  { s with
    fault := cause
    faultPc := s.pc
    faultWord := word
    reports := s.reports ++ [.fault cause s.pc word] }

end Sys2Proof.Machine
end

