-- ==== Sys2Proof/Machine/Operands.lean ====
section
/-! DEFINITION. Machine/Operands.lean: the operand forms: addresses nnn and I + k, keys, BCD digits, font addresses, sprite
rows and places (30_encoding.md R82, 41_display.md, 44_index_memory.md, 45_keys_timers.md). -/

namespace Sys2Proof.Machine

/-- zext_16(nnn) (R82). -/
def addrOf (nnn : Addr) : Word := nnn.setWidth 16

/-- The address I + k of access k, a natural number that the access masks (R10, file 44). -/
def State.indexAddr (s : State) (k : Nat) : Nat := s.i.toNat + k

/-- Register number k of a block 0..x (R184, R185). -/
def regOf (k : Nat) : Reg := BitVec.ofNat 4 k

/-! ### Keys (45_keys_timers.md R200, R201) -/

/-- isPressed(k): Key[k] for k in 0..15, false for 16..255 (R200, D12). -/
def State.isPressed (s : State) (k : Byte) : Bool := s.keys[k.toNat]?.getD false

/-- firstPressedKeyOrNone(): the smallest k with Key[k] true (R201, D13). -/
def State.firstPressed (s : State) : Option Byte := ((List.range 16).map (BitVec.ofNat 8)).find? fun k => s.isPressed k

/-! ### Digits and glyphs (44_index_memory.md R182, R183) -/

/-- v div 100 (R183). -/
def bcdHundreds (v : Byte) : Byte := BitVec.ofNat 8 (v.toNat / 100)

/-- (v div 10) mod 10 (R183). -/
def bcdTens (v : Byte) : Byte := BitVec.ofNat 8 (v.toNat / 10 % 10)

/-- v mod 10 (R183). -/
def bcdUnits (v : Byte) : Byte := BitVec.ofNat 8 (v.toNat % 10)

/-- V[x] * 5, of the whole register (R182). -/
def glyphAddr (v : Byte) : Word := BitVec.ofNat 16 (v.toNat * 5)

/-! ### Sprites (41_display.md R112, R114, R116) -/

/-- The n row bytes at I, I + 1, … (R112). -/
def State.spriteRows (s : State) (n : Nibble) : List Byte :=
  (List.range n.toNat).map fun r => s.memRead (s.indexAddr r)

/-- The bits 1 of a sprite as (column offset, row offset), in the order of R111's loops; bit 7 of a row is column offset 0
(R114, D5). -/
def spriteBits (rows : List Byte) : List (Nat × Nat) :=
  rows.zipIdx.flatMap fun (row, r) =>
    ((List.range 8).filter fun c => row.getLsbD (7 - c)).map fun c => (c, r)

/-- place(x0 + c, y0 + r): where a sprite pixel lands, none if it is dropped (R116). -/
def place (mode : EdgeMode) (x0 y0 : Byte) (c r : Nat) : Option (Fin 64 × Fin 32) :=
  match mode with
  | .wrap => some (Fin.ofNat 64 (x0.toNat + c), Fin.ofNat 32 (y0.toNat + r))
  | .clip =>
    if x0.toNat % 64 + c < 64 ∧ y0.toNat % 32 + r < 32 then
      some (Fin.ofNat 64 (x0.toNat % 64 + c), Fin.ofNat 32 (y0.toNat % 32 + r))
    else none

/-- One sprite bit 1: a collision if its pixel was set, then the pixel is inverted; a dropped pixel changes nothing
(R111, R115, R116). -/
def drawPixel (mode : EdgeMode) (x0 y0 : Byte) (acc : Framebuffer × Bool) (p : Nat × Nat) : Framebuffer × Bool :=
  match place mode x0 y0 p.1 p.2 with
  | some (px, py) => (Framebuffer.flip acc.1 px py, acc.2 || Framebuffer.pixel acc.1 px py)
  | none => acc

/-- drawSprite(x0, y0, rows): the framebuffer after and the collision value (R119, R111). -/
def drawSprite (mode : EdgeMode) (x0 y0 : Byte) (rows : List Byte) (fb : Framebuffer) : Framebuffer × Bool :=
  (spriteBits rows).foldl (drawPixel mode x0 y0) (fb, false)

end Sys2Proof.Machine
end

