-- ==== Sys2Proof/Machine/Alu.lean ====
section
/-! DEFINITION. Machine/Alu.lean: register loads, addition, logic, subtraction, shifts and the random byte (43_alu.md).
Statements run in the order the rule writes them and each read sees the earlier writes (00_scope.md R12, D3). -/

namespace Sys2Proof.Machine

/-- 6xnn LD Vx, nn (R150). -/
def execLdImm (x : Reg) (nn : Byte) (s : State) : Host.Outcome State Fault Refusal :=
  .next (s.advance.setReg x nn)

/-- 7xnn ADD Vx, nn: no flag (R151). -/
def execAddImm (x : Reg) (nn : Byte) (s : State) : Host.Outcome State Fault Refusal :=
  .next (s.advance.setReg x (add8 (s.advance.reg x) nn))

/-- 8xy0 LD Vx, Vy (R152). -/
def execLdReg (x y : Reg) (s : State) : Host.Outcome State Fault Refusal :=
  .next (s.advance.setReg x (s.advance.reg y))

/-- 8xy1 OR Vx, Vy: VF is not cleared (R153). -/
def execOrReg (x y : Reg) (s : State) : Host.Outcome State Fault Refusal :=
  .next (s.advance.setReg x (s.advance.reg x ||| s.advance.reg y))

/-- 8xy2 AND Vx, Vy: VF is not cleared (R154). -/
def execAndReg (x y : Reg) (s : State) : Host.Outcome State Fault Refusal :=
  .next (s.advance.setReg x (s.advance.reg x &&& s.advance.reg y))

/-- 8xy3 XOR Vx, Vy: VF is not cleared (R155). -/
def execXorReg (x y : Reg) (s : State) : Host.Outcome State Fault Refusal :=
  .next (s.advance.setReg x (s.advance.reg x ^^^ s.advance.reg y))

/-- 8xy4 ADD Vx, Vy: both operands are read first, VF is written, then Vx (R156). -/
def execAddReg (x y : Reg) (s : State) : Host.Outcome State Fault Refusal :=
  let a := s.advance.reg x
  let b := s.advance.reg y
  .next ((s.advance.setReg vf (carryFlag a b)).setReg x (add8 a b))

/-- 8xy5 SUB Vx, Vy: the difference reads Vx and Vy after VF is written (R157). -/
def execSub (x y : Reg) (s : State) : Host.Outcome State Fault Refusal :=
  let s1 := s.advance.setReg vf (greaterFlag (s.advance.reg x) (s.advance.reg y))
  .next (s1.setReg x (sub8 (s1.reg x) (s1.reg y)))

/-- 8xy6 SHR Vx: y is not read; the shift reads Vx after VF is written (R158). -/
def execShr (x _y : Reg) (s : State) : Host.Outcome State Fault Refusal :=
  let s1 := s.advance.setReg vf (lowBitFlag (s.advance.reg x))
  .next (s1.setReg x (shr8 (s1.reg x)))

/-- 8xy7 SUBN Vx, Vy: the difference reads Vx and Vy after VF is written (R159). -/
def execSubn (x y : Reg) (s : State) : Host.Outcome State Fault Refusal :=
  let s1 := s.advance.setReg vf (greaterFlag (s.advance.reg y) (s.advance.reg x))
  .next (s1.setReg x (sub8 (s1.reg y) (s1.reg x)))

/-- 8xyE SHL Vx: y is not read; the shift reads Vx after VF is written (R160). -/
def execShl (x _y : Reg) (s : State) : Host.Outcome State Fault Refusal :=
  let s1 := s.advance.setReg vf (highBitFlag (s.advance.reg x))
  .next (s1.setReg x (shl8 (s1.reg x)))

/-- The state after Cxnn when the environment supplies byte r (R161); one byte is drawn, whatever nn is. -/
def rndWith (r : Byte) (x : Reg) (nn : Byte) (s : State) : State :=
  { s.advance.setReg x (r &&& nn) with draws := s.draws + 1 }

/-- Cxnn RND Vx, nn (R161): r is the free value `Config.drawByte`, a fresh one for each execution (R105, D15). Log entry 3. -/
def execRnd (x : Reg) (nn : Byte) (s : State) : Host.Outcome State Fault Refusal :=
  .next (rndWith (Config.drawByte s.draws) x nn s)

end Sys2Proof.Machine
end

