-- ==== Sys2Proof/Machine/Display.lean ====
section
/-! DEFINITION. Machine/Display.lean: CLS and DRW (41_display.md). A meaning takes the state before the step and starts from
`State.advance` of it, the state that 40_step.md R101 and R102 leave. -/

namespace Sys2Proof.Machine

/-- 00E0 CLS (R110). -/
def execCls (s : State) : Host.Outcome State Fault Refusal :=
  .next (s.advance.setFb Framebuffer.blank)

/-- Dxyn DRW Vx, Vy, n (R111 to R118): both coordinates and the rows are read before any write, VF is written last. -/
def execDrw (x y : Reg) (n : Nibble) (s : State) : Host.Outcome State Fault Refusal :=
  let s1 := s.advance
  let drawn := drawSprite s1.params.edge (s1.reg x) (s1.reg y) (s1.spriteRows n) s1.fb
  .next ((s1.setFb drawn.1).setReg vf (bool01 drawn.2))

end Sys2Proof.Machine
end

