-- ==== Sys2Proof/Machine/Flow.lean ====
section
/-! DEFINITION. Machine/Flow.lean: return, system call, jumps, call and skips (42_flow.md). A meaning takes the state before
the step, so that a fault can give that state back. -/

namespace Sys2Proof.Machine

/-- 00EE RET (R130); the fault STACK_UNDERFLOW when SP = 0 (R225). -/
def execRet (s : State) : Host.Outcome State Fault Refusal :=
  match s.advance.pop with
  | some (target, s1) => .next (s1.setPc target)
  | none => .next (s.raiseFault .stackUnderflow (encode .ret))

/-- 0nnn SYS nnn: "no-op (legacy system call, intentionally ignored)" (R131). -/
def execSys (_nnn : Addr) (s : State) : Host.Outcome State Fault Refusal :=
  .next s.advance

/-- 1nnn JP nnn (R132). -/
def execJp (nnn : Addr) (s : State) : Host.Outcome State Fault Refusal :=
  .next (s.advance.setPc (addrOf nnn))

/-- 2nnn CALL nnn: saves the already-advanced PC (R133); the fault STACK_OVERFLOW when SP = 16 (R223). -/
def execCall (nnn : Addr) (s : State) : Host.Outcome State Fault Refusal :=
  match s.advance.push s.advance.pc with
  | some s1 => .next (s1.setPc (addrOf nnn))
  | none => .next (s.raiseFault .stackOverflow (encode (.call nnn)))

/-- 3xnn SE Vx, nn (R134). -/
def execSeImm (x : Reg) (nn : Byte) (s : State) : Host.Outcome State Fault Refusal :=
  .next (s.advance.skipIf (s.advance.reg x == nn))

/-- 4xnn SNE Vx, nn (R135). -/
def execSneImm (x : Reg) (nn : Byte) (s : State) : Host.Outcome State Fault Refusal :=
  .next (s.advance.skipIf (s.advance.reg x != nn))

/-- 5xy0 SE Vx, Vy (R136). -/
def execSeReg (x y : Reg) (s : State) : Host.Outcome State Fault Refusal :=
  .next (s.advance.skipIf (s.advance.reg x == s.advance.reg y))

/-- 9xy0 SNE Vx, Vy (R137). -/
def execSneReg (x y : Reg) (s : State) : Host.Outcome State Fault Refusal :=
  .next (s.advance.skipIf (s.advance.reg x != s.advance.reg y))

/-- Bnnn JP V0, nnn: nnn + V0, not relative to PC (R138). -/
def execJpV0 (nnn : Addr) (s : State) : Host.Outcome State Fault Refusal :=
  .next (s.advance.setPc (addrOf nnn + (s.advance.reg 0).setWidth 16))

end Sys2Proof.Machine
end

