-- ==== Sys2Proof/Machine/IndexMemory.lean ====
section
/-! DEFINITION. Machine/IndexMemory.lean: the index register, BCD, block store and block load (44_index_memory.md). -/

namespace Sys2Proof.Machine

/-- Annn LD I, nnn (R180). -/
def execLdI (nnn : Addr) (s : State) : Host.Outcome State Fault Refusal :=
  .next (s.advance.setI (addrOf nnn))

/-- Fx1E ADD I, Vx: modulo 65536, no flag (R181). -/
def execAddI (x : Reg) (s : State) : Host.Outcome State Fault Refusal :=
  .next (s.advance.setI (s.i + (s.advance.reg x).setWidth 16))

/-- Fx29 LD F, Vx (R182). -/
def execLdF (x : Reg) (s : State) : Host.Outcome State Fault Refusal :=
  .next (s.advance.setI (glyphAddr (s.advance.reg x)))

/-- Fx33 LD B, Vx: three byte writes, hundreds, tens, units (R183). -/
def execLdB (x : Reg) (s : State) : Host.Outcome State Fault Refusal :=
  let v := s.advance.reg x
  .next (((s.advance.memWrite (s.indexAddr 0) (bcdHundreds v)).memWrite (s.indexAddr 1) (bcdTens v)).memWrite
    (s.indexAddr 2) (bcdUnits v))

/-- for k in 0..count-1: MemWrite(I + k, 1, V[k]) (R184). -/
def State.storeBlock (s : State) (count : Nat) : State :=
  (List.range count).foldl (fun t k => t.memWrite (t.indexAddr k) (t.reg (regOf k))) s

/-- for k in 0..count-1: V[k] <- MemRead(I + k, 1) (R185). -/
def State.loadBlock (s : State) (count : Nat) : State :=
  (List.range count).foldl (fun t k => t.setReg (regOf k) (t.memRead (t.indexAddr k))) s

/-- I <- trunc16(I + x + 1), the last statement of R184 and R185. -/
def State.bumpIndex (s : State) (x : Reg) : State := s.setI (s.i + x.setWidth 16 + 1)

/-- Fx55 LD [I], Vx (R184). -/
def execLdIndStore (x : Reg) (s : State) : Host.Outcome State Fault Refusal :=
  .next ((s.advance.storeBlock (x.toNat + 1)).bumpIndex x)

/-- Fx65 LD Vx, [I] (R185). -/
def execLdIndLoad (x : Reg) (s : State) : Host.Outcome State Fault Refusal :=
  .next ((s.advance.loadBlock (x.toNat + 1)).bumpIndex x)

end Sys2Proof.Machine
end

