-- ==== Sys2Proof/Machine/KeysTimers.lean ====
section
/-! DEFINITION. Machine/KeysTimers.lean: key skips, the key wait and the timers (45_keys_timers.md). -/

namespace Sys2Proof.Machine

/-- Ex9E SKP Vx (R202). -/
def execSkp (x : Reg) (s : State) : Host.Outcome State Fault Refusal :=
  .next (s.advance.skipIf (s.advance.isPressed (s.advance.reg x)))

/-- ExA1 SKNP Vx (R203). -/
def execSknp (x : Reg) (s : State) : Host.Outcome State Fault Refusal :=
  .next (s.advance.skipIf (!s.advance.isPressed (s.advance.reg x)))

/-- Fx07 LD Vx, DT: the value after this step's tick (R204). -/
def execLdVxDt (x : Reg) (s : State) : Host.Outcome State Fault Refusal :=
  .next (s.advance.setReg x s.advance.dt)

/-- Fx0A LD Vx, K: the first pressed key, or PC back by 2 while there is none (R205). -/
def execLdVxK (x : Reg) (s : State) : Host.Outcome State Fault Refusal :=
  .next (match s.advance.firstPressed with
    | some k => s.advance.setReg x k
    | none => s.advance.setPc (s.advance.pc - 2))

/-- Fx15 LD DT, Vx (R206). -/
def execLdDtVx (x : Reg) (s : State) : Host.Outcome State Fault Refusal :=
  .next (s.advance.setDt (s.advance.reg x))

/-- Fx18 LD ST, Vx under set_sound_timer; under decode_error the word is an unknown one and only reported (R207). -/
def execLdStVx (x : Reg) (s : State) : Host.Outcome State Fault Refusal :=
  .next (match s.params.fx18 with
    | .setSoundTimer => s.advance.setSt (s.advance.reg x)
    | .decodeError => s.unknownWord (encode (.ldStVx x)))

end Sys2Proof.Machine
end

