-- ==== Sys2Proof/Machine/Step.lean ====
section
/-! DEFINITION. Machine/Step.lean: one call of executeInstruction() (40_step.md R100 to R104), and placing a word where the
step fetches it. -/

namespace Sys2Proof.Machine

/-- executeInstruction() (R103): a halted core takes no step (R104); otherwise the word at PC is decoded and its instruction
executed, or, when it is unknown, reported (R221). -/
def step (s : State) : Host.Outcome State Fault Refusal :=
  match s.fault with
  | .none =>
    match decode s.params.fx18 s.fetchWord with
    | some i => exec i s
    | none => .next (s.unknownWord s.fetchWord)
  | cause => .fault (.halted cause)

/-- s with the instruction word of the low nbits bits of w stored at PC and PC + 1, first byte first (R61). Nothing else is
changed: the core fetches at PC alone (R100). -/
def State.withFetchWord (s : State) (nbits w : Nat) : State :=
  let word : Word := BitVec.ofNat 16 (w % 2 ^ nbits)
  (s.memWrite s.pc.toNat (word.extractLsb' 8 8)).memWrite (s.pc.toNat + 1) (word.extractLsb' 0 8)

end Sys2Proof.Machine
end

