-- ==== Sys2Proof/Machine/HostOps.lean ====
section
/-! DEFINITION. Machine/HostOps.lean: what the host does to the core between steps (60_exceptions.md R236, R238,
70_reset_and_hazards.md R250 to R255). -/

namespace Sys2Proof.Machine

/-- reset() on a running session (R250): memory back to FONT and zeros, every register, timer, stack and fault field to its
reset value. The framebuffer, the latch, the report output and the configuration are not touched (R251, R252). -/
def State.hostReset (s : State) : State where
  mem := []
  v := Vector.replicate 16 0
  i := 0
  pc := 0x200
  stack := Vector.replicate 16 0
  sp := 0
  dt := 0
  st := 0
  fb := s.fb
  keys := s.keys
  fault := .none
  faultPc := 0
  faultWord := 0
  reports := s.reports
  params := s.params
  draws := s.draws

/-- The blitter's clear(), the driver's part of a reset (R110, R119, R251). -/
def State.hostClear (s : State) : State := s.setFb Framebuffer.blank

/-- PROGRAM_BASE (R6). -/
def programBase : Nat := 0x200

/-- MAX_PROGRAM_BYTES (R6, R253). -/
def maxProgramBytes : Nat := 3584

/-- M[addr + k] <- bytes[k] for every k. -/
def State.storeBytes (s : State) (addr : Nat) : List Byte → State
  | [] => s
  | b :: bytes => (s.memWrite addr b).storeBytes (addr + 1) bytes

/-- loadProgram(bytes): bytes copied to memory from 0x200, nothing else changed; a longer program than 3584 bytes is
refused (R253, D18). -/
def loadProgram (bytes : List Byte) (s : State) : Host.Outcome State Fault Refusal :=
  if bytes.length ≤ maxProgramBytes then .next (s.storeBytes programBase bytes)
  else .refused (.programTooLong bytes.length)

/-- set(key) of the input source (R238). -/
def State.setKey (s : State) (k : Fin 16) : State := { s with keys := s.keys.set k true }

/-- clear(key) of the input source (R238). -/
def State.clearKey (s : State) (k : Fin 16) : State := { s with keys := s.keys.set k false }

/-- The boot sequence before the first step: reset(), clear(), loadProgram(bytes) (R255). -/
def boot (bytes : List Byte) (s : State) : Host.Outcome State Fault Refusal := loadProgram bytes s.hostReset.hostClear

end Sys2Proof.Machine
end

