-- ==== Sys2Proof/Safety.lean ====
section
/-! DEFINITION. Safety.lean: the terms the statements use: what an instruction leaves unchanged, where PC goes, which pixels a
sprite covers, and the invariant of the machine. -/

namespace Sys2Proof.Machine

/-- The pieces of state, apart from the registers V0..VF and PC, that a frame may name as written. -/
inductive Part where
  | index
  | stack
  | delay
  | sound
  | pixels
  | memory
  | reports
  | draws
deriving DecidableEq, Repr

/-- From s to t only the listed registers, the listed parts and PC may have changed, and a timer that is not listed has
ticked once: decremented if nonzero (40_step.md R102). Memory is compared cell by cell through `State.memRead`. The latch, the
configuration and the fault fields never change under a frame. -/
def State.Frame (written : List Part) (regs : List Reg) (s t : State) : Prop :=
  (∀ r, r ∉ regs → t.reg r = s.reg r) ∧
  (.index ∉ written → t.i = s.i) ∧
  (.stack ∉ written → t.stack = s.stack ∧ t.sp = s.sp) ∧
  (.delay ∉ written → t.dt.toNat = s.dt.toNat - 1) ∧
  (.sound ∉ written → t.st.toNat = s.st.toNat - 1) ∧
  (.pixels ∉ written → ∀ x y, t.pixel x y = s.pixel x y) ∧
  (.memory ∉ written → ∀ a, t.memRead a = s.memRead a) ∧
  (.reports ∉ written → t.reports = s.reports) ∧
  (.draws ∉ written → t.draws = s.draws) ∧
  t.keys = s.keys ∧ t.params = s.params ∧
  t.fault = s.fault ∧ t.faultPc = s.faultPc ∧ t.faultWord = s.faultWord

/-- "PC: baseline": t has PC = trunc16(pc0 + 2) (R106, file 41's template). -/
def State.PcBaseline (s t : State) : Prop := t.pc.toNat = (s.pc.toNat + 2) % 65536

/-- A taken skip: t has PC = trunc16(pc0 + 4) (R106). -/
def State.PcSkipped (s t : State) : Prop := t.pc.toNat = (s.pc.toNat + 4) % 65536

/-- PC after a skip instruction whose condition is c. -/
def State.PcAfterSkip (s t : State) (c : Prop) : Prop := (c → s.PcSkipped t) ∧ (¬c → s.PcBaseline t)

/-- Some bit 1 of the n-row sprite at I lands on the pixel (px, py) when it is drawn at (V[x], V[y]) (R111 to R116). -/
def State.SpriteCovers (s : State) (x y : Reg) (n : Nibble) (px : Fin 64) (py : Fin 32) : Prop :=
  ∃ r c : Nat, r < n.toNat ∧ c < 8 ∧ (s.memRead (s.i.toNat + r)).getLsbD (7 - c) = true ∧
    place s.params.edge (s.reg x) (s.reg y) c r = some (px, py)

/-- The core is not halted (R31, R104). -/
abbrev State.Running (s : State) : Prop := s.fault = .none

/-- k steps in a row, the host doing nothing between them; a step with no next state ends the run (R256). -/
def runSteps : Nat → State → Host.Outcome State Fault Refusal
  | 0, s => .next s
  | k + 1, s =>
    match step s with
    | .next t => runSteps k t
    | stop => stop

/-- The invariant of the machine: memory is in canonical form, the model's own (log entry 14); while no fault has happened
the fault fields hold their reset values (R31, R33); a recorded overflow has a full stack, PC at the faulting CALL and the CALL's word; a recorded
underflow has an empty stack, PC at the faulting RET and the RET's word (R220, R223 to R225). -/
def State.Inv (s : State) : Prop :=
  Memory.wf s.params.font s.mem ∧
  (s.fault = .none → s.faultPc = 0 ∧ s.faultWord = 0) ∧
  (s.fault = .stackOverflow → s.sp.val = 16 ∧ s.faultPc = s.pc ∧ fieldClass s.faultWord = 0x2#4) ∧
  (s.fault = .stackUnderflow → s.sp.val = 0 ∧ s.faultPc = s.pc ∧ s.faultWord = 0x00EE#16)

end Sys2Proof.Machine
end

