-- ==== Sys2Proof/Certificates/Slice0/Obligations.lean ====
section
/-! DEFINITION. Certificates/Slice0/Obligations.lean: the statements about the model. Each docstring names the rule or the section
of spec/ it formalises; where a clause rests on a choice the spec marks as its own (a decision D<n>) or on an inference it
marks as derived, the docstring says so. -/

open Sys2Proof Sys2Proof.Machine

/-! ## Encoding (30_encoding.md) -/

/-- R81: the fields of a word, for every word built from a class, x, y and n. -/
def Obligations.FieldsOfWord : Prop :=
  ∀ c x y n : Nibble,
    let w : Word := c ++ x ++ y ++ n
    fieldClass w = c ∧ fieldX w = x ∧ fieldY w = y ∧ fieldN w = n ∧ fieldNN w = y ++ n ∧ fieldNNN w = x ++ y ++ n

/-- The words of a few instructions, written out from the patterns of R83, decode to them. -/
def Obligations.SampleWordsDecode : Prop :=
  ∀ m : Fx18Mode,
    decode m 0b0000000011100000#16 = some .cls ∧
    decode m 0b0010001100000000#16 = some (.call 0x300#12) ∧
    decode m 0b1000000100100101#16 = some (.sub 1#4 2#4) ∧
    decode m 0b1111001000110011#16 = some (.ldB 2#4) ∧
    decode m 0b1110010110011110#16 = some (.skp 5#4) ∧
    decode m 0b1101000100100101#16 = some (.drw 1#4 2#4 5#4)

/-- Decode and encode agree (R81, R83, R84): the word of every well-formed instruction, with every operand at every value,
decodes to it, under each FX18_MODE. -/
def Obligations.DecodeOfEncode : Prop :=
  ∀ (m : Fx18Mode) (i : Instr), wellFormed m i = true → decode m (encode i) = some i

/-- Each word has one meaning (R86): what a word decodes to is well formed and has that word, so no bit of a known word
is dropped. -/
def Obligations.EncodeOfDecode : Prop :=
  ∀ (m : Fx18Mode) (w : Word) (i : Instr), decode m w = some i → wellFormed m i = true ∧ encode i = w

/-- R85, R222: the unknown words are exactly those of the list. Which words the list holds is decision D11, and D7 for
Fx18, the spec's own choices. -/
def Obligations.UnknownWordsAreExactlyTheListed : Prop :=
  ∀ (m : Fx18Mode) (w : Word), decode m w = none ↔
    let c := w.toNat / 4096
    let n := w.toNat % 16
    let nn := w.toNat % 256
    (c = 5 ∧ n ≠ 0) ∨ (c = 9 ∧ n ≠ 0) ∨
    (c = 8 ∧ n ∈ [0x8, 0x9, 0xA, 0xB, 0xC, 0xD, 0xF]) ∨
    (c = 0xE ∧ nn ∉ [0x9E, 0xA1]) ∨
    (c = 0xF ∧ nn ∉ [0x07, 0x0A, 0x15, 0x18, 0x1E, 0x29, 0x33, 0x55, 0x65]) ∨
    (c = 0xF ∧ nn = 0x18 ∧ m = .decodeError)

/-- R84: 00E0 and 00EE are CLS and RET, every other class-0 word is SYS, and the classes 1, 2, 3, 4, 6, 7, A, B, C and D
decode every word to their one instruction. -/
def Obligations.ClassZeroAndFullClassesDecode : Prop :=
  ∀ m : Fx18Mode,
    (∀ nnn : Addr, decode m (0x0#4 ++ nnn) =
      some (if nnn = 0x0E0#12 then .cls else if nnn = 0x0EE#12 then .ret else .sys nnn)) ∧
    (∀ nnn : Addr, decode m (0x1#4 ++ nnn) = some (.jp nnn) ∧ decode m (0x2#4 ++ nnn) = some (.call nnn) ∧
      decode m (0xA#4 ++ nnn) = some (.ldI nnn) ∧ decode m (0xB#4 ++ nnn) = some (.jpV0 nnn)) ∧
    (∀ (x : Reg) (nn : Byte), decode m (0x3#4 ++ x ++ nn) = some (.seImm x nn) ∧
      decode m (0x4#4 ++ x ++ nn) = some (.sneImm x nn) ∧ decode m (0x6#4 ++ x ++ nn) = some (.ldImm x nn) ∧
      decode m (0x7#4 ++ x ++ nn) = some (.addImm x nn) ∧ decode m (0xC#4 ++ x ++ nn) = some (.rnd x nn)) ∧
    (∀ (x y : Reg) (n : Nibble), decode m (0xD#4 ++ x ++ y ++ n) = some (.drw x y n))

/-! ## The step (40_step.md, 60_exceptions.md) -/

/-- R103: on a core that is not halted, when the word at PC decodes to i, then i is well formed and the step is exec of i at that
state. That exec makes the whole step of a known word, with nothing around it, is the model's own arrangement, an inference:
log entry 12. -/
def Obligations.StepRunsDecodedInstruction : Prop :=
  ∀ (s : State) (i : Instr), s.Running → decode s.params.fx18 s.fetchWord = some i →
    wellFormed s.params.fx18 i = true ∧ step s = exec i s

/-- R61: the byte at the lower address is bits 15..8 of the fetched word and the byte at the higher address bits 7..0. That
each address selects its cell by its low 12 bits, so that a fetch at 0xFFF takes its second byte from 0x000, is R64 and
R10, decision D1. -/
def Obligations.FetchIsBigEndian : Prop :=
  ∀ s : State,
    s.fetchWord.toNat = 256 * (s.memRead s.pc.toNat).toNat + (s.memRead (s.pc.toNat + 1)).toNat ∧
    (s.pc.toNat % 4096 = 4095 →
      s.fetchWord.toNat = 256 * (s.memRead 4095).toNat + (s.memRead 0).toNat)

/-- R103, R221: an unknown word makes the common part, one report DecodeError(pc0, word), and nothing else. That the report
is the pair (pc0, word) on an append-only output is decision D11, the spec's own choice. -/
def Obligations.UnknownWordIsReported : Prop :=
  ∀ s : State, s.Running → decode s.params.fx18 s.fetchWord = none →
    ∃ t, step s = .next t ∧ s.PcBaseline t ∧ t.reports = s.reports ++ [.decodeError s.pc s.fetchWord] ∧
      s.Frame [.reports] [] t

/-- R104: a halted core takes no step, whatever its memory holds. Decision D10, the spec's own choice; the name of the
stop is the model's, log entry 9. -/
def Obligations.HaltedCoreTakesNoStep : Prop :=
  ∀ s : State, ¬s.Running → step s = .fault (.halted s.fault)

/-- R107: every step is one of: no step (halted); normal, with no report; normal with one DecodeError report; a fault, which
gives the state before the step back with only the fault fields and one Fault report changed. The fault outcome is decisions
D8 to D10, the spec's own choices. -/
def Obligations.StepOutcomesAreTheFour : Prop :=
  ∀ s : State,
    (¬s.Running ∧ ∀ t, step s ≠ .next t) ∨
    (s.Running ∧ ∃ t, step s = .next t ∧
      ((t.Running ∧ t.reports = s.reports ∧ ∃ i, decode s.params.fx18 s.fetchWord = some i) ∨
       (t.Running ∧ t.reports = s.reports ++ [.decodeError s.pc s.fetchWord] ∧
         decode s.params.fx18 s.fetchWord = none) ∨
       (∃ cause, cause ≠ .none ∧
         (cause = .stackOverflow ↔ (∃ nnn, decode s.params.fx18 s.fetchWord = some (.call nnn)) ∧ s.sp.val = 16) ∧
         (cause = .stackUnderflow ↔ decode s.params.fx18 s.fetchWord = some .ret ∧ s.sp.val = 0) ∧
         t = { s with
               fault := cause
               faultPc := s.pc
               faultWord := s.fetchWord
               reports := s.reports ++ [.fault cause s.pc s.fetchWord] })))

/-- R102: each timer is decremented by 1 when nonzero, once per step that is taken, whatever the instruction, unless that
instruction is the one that writes the timer (R206, R207), which writes it after the tick. That timers run at the step rate is
decision D14, the spec's own choice. -/
def Obligations.TimersTickOncePerStep : Prop :=
  ∀ s t : State, step s = .next t → t.Running →
    ((∀ x, decode s.params.fx18 s.fetchWord ≠ some (.ldDtVx x)) → t.dt.toNat = s.dt.toNat - 1) ∧
    ((∀ x, decode s.params.fx18 s.fetchWord ≠ some (.ldStVx x)) → t.st.toNat = s.st.toNat - 1)

/-- R106: where PC goes, for every instruction, in a step that takes no fault. R106 is marked derived in the spec. -/
def Obligations.PcAfterEveryInstruction : Prop :=
  ∀ (i : Instr) (s t : State), s.Running → exec i s = .next t → t.Running →
    let skipIf (c : Prop) : Prop := s.PcAfterSkip t c
    match i with
    | .jp nnn | .call nnn => t.pc.toNat = nnn.toNat
    | .jpV0 nnn => t.pc.toNat = nnn.toNat + (s.reg 0).toNat
    | .ret => some t.pc = s.stack[s.sp.val - 1]?
    | .seImm x nn => skipIf (s.reg x = nn)
    | .sneImm x nn => skipIf (s.reg x ≠ nn)
    | .seReg x y => skipIf (s.reg x = s.reg y)
    | .sneReg x y => skipIf (s.reg x ≠ s.reg y)
    | .skp x => skipIf (s.isPressed (s.reg x) = true)
    | .sknp x => skipIf (s.isPressed (s.reg x) = false)
    | .ldVxK _ => ((∀ k : Fin 16, s.keys[k] = false) → t.pc = s.pc) ∧ ((∃ k : Fin 16, s.keys[k] = true) → s.PcBaseline t)
    | _ => s.PcBaseline t

/-! ## Whole-machine rules -/

/-- Every step from a state that meets the invariant of the machine, whether or not a run reaches that state, gives one that
meets it. The clause on memory, that its list is in canonical form, is about the model's own representation of memory and no rule
of the spec: log entry 14. The clauses on the fault fields (R31, R223 to R225) are decisions D8 to D10, the spec's own choices. -/
def Obligations.StepKeepsInvariant : Prop :=
  ∀ s t : State, s.Inv → step s = .next t → t.Inv

/-- The state after reset meets the invariant. The clause on memory, its canonical form, is the model's own: log entry 14. R33 and
R250 give the fault fields' reset values, which are decision D10, the spec's own choice. -/
def Obligations.ResetMeetsInvariant : Prop :=
  State.reset.Inv

/-- Every host action of R236 keeps the invariant, whose clause on memory, its canonical form, is the model's own (log entry 14)
and whose clauses on the fault fields are decisions D8 to D10, the spec's own choices. -/
def Obligations.HostActionsKeepInvariant : Prop :=
  ∀ s : State, s.Inv →
    s.hostReset.Inv ∧ s.hostClear.Inv ∧ (∀ k, (s.setKey k).Inv) ∧ (∀ k, (s.clearKey k).Inv) ∧
    (∀ bytes t, loadProgram bytes s = .next t → t.Inv) ∧ (∀ bytes t, boot bytes s = .next t → t.Inv)

/-- R30, R6: the input latch is "read-only from the engine's perspective" and the parameters are fixed. -/
def Obligations.StepKeepsLatchAndParameters : Prop :=
  ∀ s t : State, step s = .next t → t.keys = s.keys ∧ t.params = s.params

/-- R36: the report output is append-only, at most one report a step, and no instruction reads it: with any other past output
the step makes the same next state and appends the same reports. The output is decision D11, the spec's own choice. -/
def Obligations.ReportsAreAppendOnlyOutput : Prop :=
  ∀ s t : State, step s = .next t →
    ∃ new, new.length ≤ 1 ∧ t.reports = s.reports ++ new ∧
      ∀ past, step { s with reports := past } = .next { t with reports := past ++ new }

/-- R60, R183, R184: only Fx33 and Fx55 write memory, Fx33 the three cells from I and Fx55 the x + 1 cells from I; every byte
of memory outside them reads as before. -/
def Obligations.OnlyBcdAndBlockStoreWriteMemory : Prop :=
  ∀ (i : Instr) (s t : State), exec i s = .next t →
    let stored : Nat := match i with
      | .ldB _ => 3
      | .ldIndStore x => x.toNat + 1
      | _ => 0
    ∀ a, (∀ k, k < stored → a % 4096 ≠ s.indexAddr k % 4096) → t.memRead a = s.memRead a

/-- R29: the framebuffer is written only by CLS and DRW. -/
def Obligations.OnlyClearAndDrawChangePixels : Prop :=
  ∀ (i : Instr) (s t : State), exec i s = .next t → i ≠ .cls → (∀ x y n, i ≠ .drw x y n) →
    ∀ px py, t.pixel px py = s.pixel px py

/-- R22, R162: VF changes only under the six instructions that write it as a flag, or when it is named as the destination,
which for Fx65 means x = 0xF. -/
def Obligations.VfChangesOnlyAsFlagOrDestination : Prop :=
  ∀ (i : Instr) (s t : State), exec i s = .next t → t.reg vf ≠ s.reg vf →
    (∃ x y, i = .addReg x y ∨ i = .sub x y ∨ i = .shr x y ∨ i = .subn x y ∨ i = .shl x y ∨ ∃ n, i = .drw x y n) ∨
    (∃ nn, i = .ldImm vf nn ∨ i = .addImm vf nn ∨ i = .rnd vf nn) ∨
    (∃ y, i = .ldReg vf y ∨ i = .orReg vf y ∨ i = .andReg vf y ∨ i = .xorReg vf y) ∨
    i = .ldVxDt vf ∨ i = .ldVxK vf ∨ i = .ldIndLoad vf

/-- R25: only CALL and RET touch the call stack, and no instruction but CALL changes an entry. -/
def Obligations.OnlyCallAndReturnTouchStack : Prop :=
  ∀ (i : Instr) (s t : State), exec i s = .next t →
    ((∀ nnn, i ≠ .call nnn) → t.stack = s.stack) ∧
    ((∀ nnn, i ≠ .call nnn) → i ≠ .ret → t.sp = s.sp)

/-- R23: I is written only by Annn, Fx1E, Fx29, Fx55 and Fx65. -/
def Obligations.OnlyIndexInstructionsWriteI : Prop :=
  ∀ (i : Instr) (s t : State), exec i s = .next t → t.i ≠ s.i →
    (∃ nnn, i = .ldI nnn) ∨ ∃ x, i = .addI x ∨ i = .ldF x ∨ i = .ldIndStore x ∨ i = .ldIndLoad x

/-! ## Display family (41_display.md) -/

/-- R110: CLS completes, every pixel is 0, VF and everything else is unchanged. -/
def Obligations.ClsClearsEveryPixel : Prop :=
  ∀ (m : Fx18Mode) (s : State),
    decode m 0x00E0#16 = some .cls ∧
    ∃ t, exec .cls s = .next t ∧ s.PcBaseline t ∧ (∀ px py, t.pixel px py = false) ∧ s.Frame [.pixels] [] t

/-- R116: where a sprite pixel lands under each SPRITE_EDGE_MODE. The parameter is decision D4, the spec's own. -/
def Obligations.PlaceWrapsOrClips : Prop :=
  ∀ (x0 y0 : Byte) (c r : Nat),
    (∃ px py, place .wrap x0 y0 c r = some (px, py) ∧ px.val = (x0.toNat + c) % 64 ∧ py.val = (y0.toNat + r) % 32) ∧
    (if x0.toNat % 64 + c < 64 ∧ y0.toNat % 32 + r < 32 then
      ∃ px py, place .clip x0 y0 c r = some (px, py) ∧ px.val = x0.toNat % 64 + c ∧ py.val = y0.toNat % 32 + r
    else place .clip x0 y0 c r = none)

/-- R111 to R118: DRW completes for every x, y, n and edge mode. Both coordinates are the registers before the instruction; a
pixel that some bit 1 of the rows at I lands on is inverted and every other pixel is as before; VF is 1 exactly when such a
pixel was set; I, memory and every other register are unchanged. The bit order of a row is decision D5 and general knowledge
(log entry 10), the masking of row addresses D1, the order of reads and writes D3: the spec's own choices. -/
def Obligations.DrwXorsSprite : Prop :=
  ∀ (m : Fx18Mode) (x y : Reg) (n : Nibble) (s : State),
    decode m (0xD#4 ++ x ++ y ++ n) = some (.drw x y n) ∧
    ∃ t, exec (.drw x y n) s = .next t ∧ s.PcBaseline t ∧
      (∀ px py, (s.SpriteCovers x y n px py → t.pixel px py = !s.pixel px py) ∧
        (¬s.SpriteCovers x y n px py → t.pixel px py = s.pixel px py)) ∧
      ((∃ px py, s.SpriteCovers x y n px py ∧ s.pixel px py = true) → t.reg vf = 1) ∧
      ((¬∃ px py, s.SpriteCovers x y n px py ∧ s.pixel px py = true) → t.reg vf = 0) ∧
      s.Frame [.pixels] [vf] t

/-- R118: drawing the same sprite twice at the same place restores every pixel, and where it was drawn on clear pixels and has a
bit 1 in the grid, the second draw reports a collision. The coordinates are not in VF, which the first draw writes. -/
def Obligations.DrawingTwiceCancels : Prop :=
  ∀ (x y : Reg) (n : Nibble) (s : State), x ≠ vf → y ≠ vf →
    ∃ t u, exec (.drw x y n) s = .next t ∧ exec (.drw x y n) t = .next u ∧
      (∀ px py, u.pixel px py = s.pixel px py) ∧
      ((∀ px py, s.SpriteCovers x y n px py → s.pixel px py = false) →
        (∃ px py, s.SpriteCovers x y n px py) → t.reg vf = 0 ∧ u.reg vf = 1)

/-! ## Control-flow family (42_flow.md) -/

/-- R131, R132, R138: SYS does nothing but the common part, JP goes to nnn, JP V0 to nnn + V0 whatever its x field. -/
def Obligations.SysJumpAndIndexedJump : Prop :=
  ∀ (m : Fx18Mode) (nnn : Addr) (s : State),
    (nnn ≠ 0x0E0#12 → nnn ≠ 0x0EE#12 → decode m (0x0#4 ++ nnn) = some (.sys nnn)) ∧
    decode m (0x1#4 ++ nnn) = some (.jp nnn) ∧ decode m (0xB#4 ++ nnn) = some (.jpV0 nnn) ∧
    (∃ t, exec (.sys nnn) s = .next t ∧ s.PcBaseline t ∧ s.Frame [] [] t) ∧
    (∃ t, exec (.jp nnn) s = .next t ∧ t.pc.toNat = nnn.toNat ∧ s.Frame [] [] t) ∧
    (∃ t, exec (.jpV0 nnn) s = .next t ∧ t.pc.toNat = nnn.toNat + (s.reg 0).toNat ∧ s.Frame [] [] t)

/-- R133: CALL with room completes: the already-advanced PC is pushed, PC is nnn, no other entry changes. With 16 return
addresses it takes the fault STACK_OVERFLOW instead (R223, R224, decisions D8 and D10, the spec's own choices): the state before
the step with the fault fields set and one report. -/
def Obligations.CallPushesOrOverflows : Prop :=
  ∀ (m : Fx18Mode) (nnn : Addr) (s : State),
    decode m (0x2#4 ++ nnn) = some (.call nnn) ∧
    (∀ h : s.sp.val < 16, ∃ t, exec (.call nnn) s = .next t ∧ t.pc.toNat = nnn.toNat ∧ t.sp.val = s.sp.val + 1 ∧
      (t.stack[s.sp.val]).toNat = (s.pc.toNat + 2) % 65536 ∧
      (∀ k : Fin 16, k.val ≠ s.sp.val → t.stack[k] = s.stack[k]) ∧ s.Frame [.stack] [] t) ∧
    (s.sp.val = 16 → exec (.call nnn) s = .next { s with
      fault := .stackOverflow
      faultPc := s.pc
      faultWord := 0x2#4 ++ nnn
      reports := s.reports ++ [.fault .stackOverflow s.pc (0x2#4 ++ nnn)] })

/-- R130: RET with an entry completes: SP is one less, PC is the entry, which keeps its value. With an empty stack it takes the
fault STACK_UNDERFLOW instead (R225, R224, decisions D9 and D10, the spec's own choices). -/
def Obligations.RetPopsOrUnderflows : Prop :=
  ∀ (m : Fx18Mode) (s : State),
    decode m 0x00EE#16 = some .ret ∧
    (0 < s.sp.val → ∃ t, exec .ret s = .next t ∧ t.sp.val = s.sp.val - 1 ∧ some t.pc = s.stack[s.sp.val - 1]? ∧
      t.stack = s.stack ∧ s.Frame [.stack] [] t) ∧
    (s.sp.val = 0 → exec .ret s = .next { s with
      fault := .stackUnderflow
      faultPc := s.pc
      faultWord := 0x00EE#16
      reports := s.reports ++ [.fault .stackUnderflow s.pc 0x00EE#16] })

/-- R223 to R225, R104: at the step, a CALL on a full stack and a RET on an empty one record the cause, pc0 and the fetched word,
discard every other effect, and leave the core halted. Decisions D8 to D10, the spec's own choices; the name of the stop a halted
core makes is the model's, log entry 9. -/
def Obligations.StackFaultIsPreciseAndHalts : Prop :=
  ∀ (s : State) (cause : FaultCause), s.Running →
    ((cause = .stackOverflow ∧ s.sp.val = 16 ∧ ∃ nnn, decode s.params.fx18 s.fetchWord = some (.call nnn)) ∨
     (cause = .stackUnderflow ∧ s.sp.val = 0 ∧ decode s.params.fx18 s.fetchWord = some .ret)) →
    ∃ t, step s = .next t ∧
      t = { s with
            fault := cause
            faultPc := s.pc
            faultWord := s.fetchWord
            reports := s.reports ++ [.fault cause s.pc s.fetchWord] } ∧
      step t = .fault (.halted cause)

/-- R130, R133: a CALL with room and then at once a RET restore PC to the word after the CALL, SP and every register. -/
def Obligations.CallThenReturnRestoresPc : Prop :=
  ∀ (nnn : Addr) (s : State), s.sp.val < 16 →
    ∃ t u, exec (.call nnn) s = .next t ∧ exec .ret t = .next u ∧ s.PcBaseline u ∧ u.sp = s.sp ∧
      ∀ r, u.reg r = s.reg r

/-- R134, R135: SE and SNE with an immediate complete and skip one word on equality or inequality; nothing else changes. -/
def Obligations.SkipsOnImmediate : Prop :=
  ∀ (m : Fx18Mode) (x : Reg) (nn : Byte) (s : State),
    decode m (0x3#4 ++ x ++ nn) = some (.seImm x nn) ∧ decode m (0x4#4 ++ x ++ nn) = some (.sneImm x nn) ∧
    (∃ t, exec (.seImm x nn) s = .next t ∧ s.PcAfterSkip t (s.reg x = nn) ∧ s.Frame [] [] t) ∧
    (∃ t, exec (.sneImm x nn) s = .next t ∧ s.PcAfterSkip t (s.reg x ≠ nn) ∧ s.Frame [] [] t)

/-- R136, R137: SE and SNE with two registers complete and skip one word on equality or inequality, and their words with a
nonzero n are unknown, which is decision D11, the spec's own choice. -/
def Obligations.SkipsOnRegisters : Prop :=
  ∀ (m : Fx18Mode) (x y : Reg) (s : State),
    decode m (0x5#4 ++ x ++ y ++ 0x0#4) = some (.seReg x y) ∧ decode m (0x9#4 ++ x ++ y ++ 0x0#4) = some (.sneReg x y) ∧
    (∀ n : Nibble, n ≠ 0 → decode m (0x5#4 ++ x ++ y ++ n) = none ∧ decode m (0x9#4 ++ x ++ y ++ n) = none) ∧
    (∃ t, exec (.seReg x y) s = .next t ∧ s.PcAfterSkip t (s.reg x = s.reg y) ∧ s.Frame [] [] t) ∧
    (∃ t, exec (.sneReg x y) s = .next t ∧ s.PcAfterSkip t (s.reg x ≠ s.reg y) ∧ s.Frame [] [] t)

/-! ## Register and ALU family (43_alu.md) -/

/-- R150, R151: LD Vx, nn and ADD Vx, nn complete for every x; the sum is modulo 256 and no flag is written. -/
def Obligations.LoadAndAddImmediate : Prop :=
  ∀ (m : Fx18Mode) (x : Reg) (nn : Byte) (s : State),
    decode m (0x6#4 ++ x ++ nn) = some (.ldImm x nn) ∧ decode m (0x7#4 ++ x ++ nn) = some (.addImm x nn) ∧
    (∃ t, exec (.ldImm x nn) s = .next t ∧ s.PcBaseline t ∧ t.reg x = nn ∧ s.Frame [] [x] t) ∧
    (∃ t, exec (.addImm x nn) s = .next t ∧ s.PcBaseline t ∧ (t.reg x).toNat = ((s.reg x).toNat + nn.toNat) % 256 ∧
      s.Frame [] [x] t)

/-- R152 to R155: LD, OR, AND and XOR of two registers complete for every x and y, bit by bit; VF is not cleared. -/
def Obligations.RegisterMoveAndLogic : Prop :=
  ∀ (m : Fx18Mode) (x y : Reg) (s : State),
    decode m (0x8#4 ++ x ++ y ++ 0x0#4) = some (.ldReg x y) ∧ decode m (0x8#4 ++ x ++ y ++ 0x1#4) = some (.orReg x y) ∧
    decode m (0x8#4 ++ x ++ y ++ 0x2#4) = some (.andReg x y) ∧ decode m (0x8#4 ++ x ++ y ++ 0x3#4) = some (.xorReg x y) ∧
    (∃ t, exec (.ldReg x y) s = .next t ∧ s.PcBaseline t ∧ t.reg x = s.reg y ∧ s.Frame [] [x] t) ∧
    (∃ t, exec (.orReg x y) s = .next t ∧ s.PcBaseline t ∧ s.Frame [] [x] t ∧
      ∀ k, (t.reg x).getLsbD k = ((s.reg x).getLsbD k || (s.reg y).getLsbD k)) ∧
    (∃ t, exec (.andReg x y) s = .next t ∧ s.PcBaseline t ∧ s.Frame [] [x] t ∧
      ∀ k, (t.reg x).getLsbD k = ((s.reg x).getLsbD k && (s.reg y).getLsbD k)) ∧
    (∃ t, exec (.xorReg x y) s = .next t ∧ s.PcBaseline t ∧ s.Frame [] [x] t ∧
      ∀ k, (t.reg x).getLsbD k = ((s.reg x).getLsbD k ^^ (s.reg y).getLsbD k))

/-- R156: ADD Vx, Vy completes; Vx is the sum modulo 256 of the registers before, whether or not one of them is VF, and VF the
carry unless x is 0xF. The order of the two writes is decision D3, the spec's own choice. -/
def Obligations.AddSetsCarry : Prop :=
  ∀ (m : Fx18Mode) (x y : Reg) (s : State),
    decode m (0x8#4 ++ x ++ y ++ 0x4#4) = some (.addReg x y) ∧
    ∃ t, exec (.addReg x y) s = .next t ∧ s.PcBaseline t ∧ s.Frame [] [x, vf] t ∧
      (t.reg x).toNat = ((s.reg x).toNat + (s.reg y).toNat) % 256 ∧
      (x ≠ vf → (t.reg vf).toNat = if (s.reg x).toNat + (s.reg y).toNat > 255 then 1 else 0)

/-- R157: SUB Vx, Vy completes; the flag f is the strict comparison of the registers before and is written first; the
difference then reads f wherever x or y is 0xF. The order is decision D3, the spec's own choice. -/
def Obligations.SubSetsStrictFlag : Prop :=
  ∀ (m : Fx18Mode) (x y : Reg) (s : State),
    let f := if (s.reg x).toNat > (s.reg y).toNat then 1 else 0
    decode m (0x8#4 ++ x ++ y ++ 0x5#4) = some (.sub x y) ∧
    ∃ t, exec (.sub x y) s = .next t ∧ s.PcBaseline t ∧ s.Frame [] [x, vf] t ∧
      (x ≠ vf → (t.reg vf).toNat = f) ∧
      (x ≠ vf → y ≠ vf → (t.reg x).toNat = (256 + (s.reg x).toNat - (s.reg y).toNat) % 256) ∧
      (x = vf → y ≠ vf → (t.reg vf).toNat = (256 + f - (s.reg y).toNat) % 256) ∧
      (x ≠ vf → y = vf → (t.reg x).toNat = (256 + (s.reg x).toNat - f) % 256) ∧
      (x = vf → y = vf → (t.reg vf).toNat = 0)

/-- R159: SUBN Vx, Vy completes, as SUB with the operands exchanged. The order is decision D3, the spec's own choice. -/
def Obligations.SubnSetsStrictFlag : Prop :=
  ∀ (m : Fx18Mode) (x y : Reg) (s : State),
    let f := if (s.reg y).toNat > (s.reg x).toNat then 1 else 0
    decode m (0x8#4 ++ x ++ y ++ 0x7#4) = some (.subn x y) ∧
    ∃ t, exec (.subn x y) s = .next t ∧ s.PcBaseline t ∧ s.Frame [] [x, vf] t ∧
      (x ≠ vf → (t.reg vf).toNat = f) ∧
      (x ≠ vf → y ≠ vf → (t.reg x).toNat = (256 + (s.reg y).toNat - (s.reg x).toNat) % 256) ∧
      (x = vf → y ≠ vf → (t.reg vf).toNat = (256 + (s.reg y).toNat - f) % 256) ∧
      (x ≠ vf → y = vf → (t.reg x).toNat = (256 + f - (s.reg x).toNat) % 256) ∧
      (x = vf → y = vf → (t.reg vf).toNat = 0)

/-- R158, R160: SHR and SHL complete for every x and y and ignore Vy; VF is the bit shifted out; with x = 0xF the flag is
written first and then shifted, which is decision D3, the spec's own choice. -/
def Obligations.ShiftsSetShiftedOutBit : Prop :=
  ∀ (m : Fx18Mode) (x y : Reg) (s : State),
    decode m (0x8#4 ++ x ++ y ++ 0x6#4) = some (.shr x y) ∧ decode m (0x8#4 ++ x ++ y ++ 0xE#4) = some (.shl x y) ∧
    (∃ t, exec (.shr x y) s = .next t ∧ s.PcBaseline t ∧ s.Frame [] [x, vf] t ∧
      (x ≠ vf → (t.reg x).toNat = (s.reg x).toNat / 2 ∧ (t.reg vf).toNat = (s.reg x).toNat % 2) ∧
      (x = vf → t.reg vf = 0)) ∧
    (∃ t, exec (.shl x y) s = .next t ∧ s.PcBaseline t ∧ s.Frame [] [x, vf] t ∧
      (x ≠ vf → (t.reg x).toNat = (s.reg x).toNat * 2 % 256 ∧
        (t.reg vf).toNat = if 128 ≤ (s.reg x).toNat then 1 else 0) ∧
      (x = vf → (t.reg vf).toNat = if 128 ≤ (s.reg x).toNat then 2 else 0))

/-- R161: RND completes: for every byte r the environment may supply, the state after has Vx = r AND nn, which has no bit nn
lacks, and one more byte drawn, whatever nn is; the step takes r from the free value at the count of bytes drawn. The free
value is decision D15, the spec's own choice, and the count is the model's own field: log entry 3. -/
def Obligations.RndMasksOneFreeByte : Prop :=
  ∀ (m : Fx18Mode) (x : Reg) (nn : Byte) (s : State),
    decode m (0xC#4 ++ x ++ nn) = some (.rnd x nn) ∧
    exec (.rnd x nn) s = .next (rndWith (Config.drawByte s.draws) x nn s) ∧
    ∀ r : Byte,
      let t := rndWith r x nn s
      s.PcBaseline t ∧ t.reg x = r &&& nn ∧ (∀ k, (t.reg x).getLsbD k = true → nn.getLsbD k = true) ∧
        t.draws = s.draws + 1 ∧ s.Frame [.draws] [x] t

/-! ## Index-register and memory family (44_index_memory.md) -/

/-- R180, R182: LD I and LD F complete; I is nnn, or five times the whole of Vx. -/
def Obligations.LoadIndexAndGlyphAddress : Prop :=
  ∀ (m : Fx18Mode) (nnn : Addr) (x : Reg) (s : State),
    decode m (0xA#4 ++ nnn) = some (.ldI nnn) ∧ decode m (0xF#4 ++ x ++ 0x29#8) = some (.ldF x) ∧
    (∃ t, exec (.ldI nnn) s = .next t ∧ s.PcBaseline t ∧ t.i.toNat = nnn.toNat ∧ s.Frame [.index] [] t) ∧
    (∃ t, exec (.ldF x) s = .next t ∧ s.PcBaseline t ∧ t.i.toNat = (s.reg x).toNat * 5 ∧ s.Frame [.index] [] t)

/-- R181: ADD I, Vx completes and writes no flag. The wrap modulo 65536 is decision D1, the spec's own choice. -/
def Obligations.AddToIndexWraps : Prop :=
  ∀ (m : Fx18Mode) (x : Reg) (s : State),
    decode m (0xF#4 ++ x ++ 0x1E#8) = some (.addI x) ∧
    ∃ t, exec (.addI x) s = .next t ∧ s.PcBaseline t ∧ t.i.toNat = (s.i.toNat + (s.reg x).toNat) % 65536 ∧
      s.Frame [.index] [] t

/-- R183: LD B, Vx completes; the cells I, I + 1 and I + 2 hold the hundreds, tens and units of Vx, from which Vx is
reconstructed, and every other cell reads as before. -/
def Obligations.BcdStoresThreeDigits : Prop :=
  ∀ (m : Fx18Mode) (x : Reg) (s : State),
    decode m (0xF#4 ++ x ++ 0x33#8) = some (.ldB x) ∧
    ∃ t, exec (.ldB x) s = .next t ∧ s.PcBaseline t ∧
      (t.memRead (s.indexAddr 0)).toNat = (s.reg x).toNat / 100 ∧
      (t.memRead (s.indexAddr 1)).toNat = (s.reg x).toNat / 10 % 10 ∧
      (t.memRead (s.indexAddr 2)).toNat = (s.reg x).toNat % 10 ∧
      100 * (t.memRead (s.indexAddr 0)).toNat + 10 * (t.memRead (s.indexAddr 1)).toNat +
        (t.memRead (s.indexAddr 2)).toNat = (s.reg x).toNat ∧
      (∀ a, (∀ k, k < 3 → a % 4096 ≠ s.indexAddr k % 4096) → t.memRead a = s.memRead a) ∧
      s.Frame [.memory] [] t

/-- R184: LD [I], Vx completes for every x; the x + 1 cells from I hold V0..Vx, every other cell reads as before, and I is
advanced by x + 1. The wrap of I and the masking of addresses are decision D1, the spec's own choice. -/
def Obligations.BlockStoreCopiesRegisters : Prop :=
  ∀ (m : Fx18Mode) (x : Reg) (s : State),
    decode m (0xF#4 ++ x ++ 0x55#8) = some (.ldIndStore x) ∧
    ∃ t, exec (.ldIndStore x) s = .next t ∧ s.PcBaseline t ∧
      (∀ r : Reg, r.toNat ≤ x.toNat → t.memRead (s.indexAddr r.toNat) = s.reg r) ∧
      (∀ a, (∀ k, k < x.toNat + 1 → a % 4096 ≠ s.indexAddr k % 4096) → t.memRead a = s.memRead a) ∧
      t.i.toNat = (s.i.toNat + x.toNat + 1) % 65536 ∧ s.Frame [.memory, .index] [] t

/-- R185: LD Vx, [I] completes for every x; V0..Vx hold the x + 1 cells from I, every other register is unchanged, and I is
advanced by x + 1. The wrap of I and the masking of addresses are decision D1, the spec's own choice. -/
def Obligations.BlockLoadCopiesMemory : Prop :=
  ∀ (m : Fx18Mode) (x : Reg) (s : State),
    decode m (0xF#4 ++ x ++ 0x65#8) = some (.ldIndLoad x) ∧
    ∃ t, exec (.ldIndLoad x) s = .next t ∧ s.PcBaseline t ∧
      (∀ r : Reg, r.toNat ≤ x.toNat → t.reg r = s.memRead (s.indexAddr r.toNat)) ∧
      t.i.toNat = (s.i.toNat + x.toNat + 1) % 65536 ∧
      s.Frame [.index] ((List.range (x.toNat + 1)).map (BitVec.ofNat 4)) t

/-- R184, R185: a block store, I set back to where it started, and a block load with the same x leave every register as it
was. -/
def Obligations.BlockStoreThenLoadRestores : Prop :=
  ∀ (x : Reg) (s : State),
    ∃ t u, exec (.ldIndStore x) s = .next t ∧ exec (.ldIndLoad x) (t.setI s.i) = .next u ∧
      (∀ r, u.reg r = s.reg r) ∧ u.i = t.i

/-- R10, R20, R70: a read returns the most recent write to its cell, addresses that agree in their low 12 bits name one cell, and a
write leaves every other cell alone. The masking is decision D1, the spec's own choice. -/
def Obligations.ReadReturnsLastWrite : Prop :=
  ∀ (s : State) (a addr : Nat) (b : Byte),
    (a % 4096 = addr % 4096 → (s.memWrite addr b).memRead a = b) ∧
    (a % 4096 ≠ addr % 4096 → (s.memWrite addr b).memRead a = s.memRead a)

/-- A word stored at PC, wherever PC is, is the word the next fetch reads. The store is the model's own `State.withFetchWord`, which
stands for a load from outside: log entry 11. That the fetch reads it is R61 and R70, with the masking of R10, which is decision
D1, the spec's own choice. -/
def Obligations.StoredWordIsFetched : Prop :=
  ∀ (s : State) (w : Word), (s.withFetchWord 16 w.toNat).fetchWord = w

/-! ## Key and timer family (45_keys_timers.md) -/

/-- R200, R202, R203: SKP and SKNP complete and skip by Key[Vx]; a number 16..255 is not pressed, which is decision D12, the
spec's own choice. -/
def Obligations.KeySkipsReadLatch : Prop :=
  ∀ (m : Fx18Mode) (x : Reg) (s : State),
    let held := ∃ k : Fin 16, k.val = (s.reg x).toNat ∧ s.keys[k] = true
    decode m (0xE#4 ++ x ++ 0x9E#8) = some (.skp x) ∧ decode m (0xE#4 ++ x ++ 0xA1#8) = some (.sknp x) ∧
    (∃ t, exec (.skp x) s = .next t ∧ s.PcAfterSkip t held ∧ s.Frame [] [] t) ∧
    (∃ t, exec (.sknp x) s = .next t ∧ s.PcAfterSkip t (¬held) ∧ s.Frame [] [] t)

/-- R205, R201: LD Vx, K completes. With a key held, Vx is the lowest-numbered one, which is decision D13, the spec's own choice;
with none, PC is back at this instruction and nothing but the timers' tick has happened. -/
def Obligations.KeyWaitTakesLowestOrRepeats : Prop :=
  ∀ (m : Fx18Mode) (x : Reg) (s : State),
    decode m (0xF#4 ++ x ++ 0x0A#8) = some (.ldVxK x) ∧
    (∀ k : Fin 16, s.keys[k] = true → (∀ j : Fin 16, j < k → s.keys[j] = false) →
      ∃ t, exec (.ldVxK x) s = .next t ∧ s.PcBaseline t ∧ (t.reg x).toNat = k.val ∧ s.Frame [] [x] t) ∧
    ((∀ k : Fin 16, s.keys[k] = false) → ∃ t, exec (.ldVxK x) s = .next t ∧ t.pc = s.pc ∧ s.Frame [] [] t)

/-- R205, R260: while no key is held, every one of any number of steps re-executes the waiting LD Vx, K: PC, the registers and
memory stay, and each step ticks the timers. -/
def Obligations.KeyWaitNeverProceedsAlone : Prop :=
  ∀ (x : Reg) (s : State) (k : Nat), s.Running → decode s.params.fx18 s.fetchWord = some (.ldVxK x) →
    (∀ key : Fin 16, s.keys[key] = false) →
    ∃ t, runSteps k s = .next t ∧ t.pc = s.pc ∧ t.v = s.v ∧ t.mem = s.mem ∧
      t.dt.toNat = s.dt.toNat - k ∧ t.st.toNat = s.st.toNat - k

/-- R204, R206: LD Vx, DT completes with DT after this step's tick, and LD DT, Vx completes with DT = Vx, which this step's tick
does not lower; the one right after the other reads Vx - 1. -/
def Obligations.DelayTimerReadAndWrite : Prop :=
  ∀ (m : Fx18Mode) (x : Reg) (s : State),
    decode m (0xF#4 ++ x ++ 0x07#8) = some (.ldVxDt x) ∧ decode m (0xF#4 ++ x ++ 0x15#8) = some (.ldDtVx x) ∧
    (∃ t, exec (.ldVxDt x) s = .next t ∧ s.PcBaseline t ∧ (t.reg x).toNat = s.dt.toNat - 1 ∧ s.Frame [] [x] t) ∧
    (∃ t, exec (.ldDtVx x) s = .next t ∧ s.PcBaseline t ∧ t.dt = s.reg x ∧ s.Frame [.delay] [] t) ∧
    (∀ y : Reg, ∃ t u, exec (.ldDtVx x) s = .next t ∧ exec (.ldVxDt y) t = .next u ∧
      (u.reg y).toNat = (s.reg x).toNat - 1)

/-- R207: LD ST, Vx completes in each FX18_MODE: under set_sound_timer ST = Vx; under decode_error its word is unknown and it only
reports DecodeError. The instruction and its parameter are decision D7 and general knowledge, the spec's own choice (log
entry 10); that exec's branch for decode_error makes what the step makes of the unknown word is log entry 12. -/
def Obligations.SoundTimerWriteByMode : Prop :=
  ∀ (x : Reg) (s : State),
    let w : Word := 0xF#4 ++ x ++ 0x18#8
    decode .setSoundTimer w = some (.ldStVx x) ∧ decode .decodeError w = none ∧
    (s.params.fx18 = .setSoundTimer → ∃ t, exec (.ldStVx x) s = .next t ∧ s.PcBaseline t ∧ t.st = s.reg x ∧
      s.Frame [.sound] [] t) ∧
    (s.params.fx18 = .decodeError → ∃ t, exec (.ldStVx x) s = .next t ∧ s.PcBaseline t ∧
      t.reports = s.reports ++ [.decodeError s.pc w] ∧ s.Frame [.reports] [] t)

/-! ## Reset and load (70_reset_and_hazards.md) -/

/-- R250: what reset() leaves, from any state: FONT at 0x000..0x04F and zeros above, every register, timer, stack entry and fault
field zero, PC at 0x200. That I and the fault fields are among them is decisions D16 and D10, the spec's own choices; FONT is the
parameter of the state. -/
def Obligations.ResetLeavesResetValues : Prop :=
  ∀ s : State,
    let t := s.hostReset
    (∀ a, (h : a < 80) → t.memRead a = s.params.font[a]) ∧ (∀ a, 80 ≤ a → a < 4096 → t.memRead a = 0) ∧
    (∀ r, t.reg r = 0) ∧ t.i = 0 ∧ t.dt = 0 ∧ t.st = 0 ∧ (∀ k : Fin 16, t.stack[k] = 0) ∧ t.sp = 0 ∧ t.pc = 0x200#16 ∧
    t.fault = .none ∧ t.faultPc = 0 ∧ t.faultWord = 0

/-- R250: the model's reset state holds the same values: R33's table. What it holds where R33 gives no value (framebuffer, latch,
reports) is not stated here; its FONT is the default one, log entries 1 and 2. -/
def Obligations.ResetStateHoldsTableValues : Prop :=
  let t := State.reset
  (∀ a, a < 4096 → t.memRead a = (t.params.font[a]?).getD 0) ∧ (∀ r, t.reg r = 0) ∧ t.i = 0 ∧ t.pc = 0x200#16 ∧
  (∀ k : Fin 16, t.stack[k] = 0) ∧ t.sp = 0 ∧ t.dt = 0 ∧ t.st = 0 ∧ t.fault = .none ∧ t.faultPc = 0 ∧ t.faultWord = 0

/-- R251, R252: reset() does not touch the framebuffer, the input latch or the report output, and the driver's clear() of the
framebuffer touches nothing else. The latch and the report output are decision D16, the spec's own choice. -/
def Obligations.ResetKeepsDisplayLatchAndReports : Prop :=
  ∀ s : State,
    s.hostReset.fb = s.fb ∧ s.hostReset.keys = s.keys ∧ s.hostReset.reports = s.reports ∧ s.hostReset.params = s.params ∧
    (∀ px py, s.hostClear.pixel px py = false) ∧ s.hostClear = { s with fb := s.hostClear.fb }

/-- R253: loadProgram of at most 3584 bytes copies them to memory from 0x200 and changes no other cell and no other state; a
longer program is refused, which is decision D18, the spec's own choice, under a name of the model's, log entry 8. -/
def Obligations.LoadProgramCopiesOrRefuses : Prop :=
  ∀ (bytes : List Byte) (s : State),
    (bytes.length ≤ 3584 → ∃ t, loadProgram bytes s = .next t ∧ t = { s with mem := t.mem } ∧
      (∀ k, (h : k < bytes.length) → t.memRead (0x200 + k) = bytes[k]) ∧
      (∀ a, a < 4096 → (a < 0x200 ∨ 0x200 + bytes.length ≤ a) → t.memRead a = s.memRead a)) ∧
    (3584 < bytes.length → loadProgram bytes s = .refused (.programTooLong bytes.length))
end

