-- ==== Sys2Proof/Laws/Decode.lean ====
section
/-! SUPPORT. Laws/Decode.lean: the fields of a word built from fields, and a word rebuilt from its fields (30_encoding.md R81). -/

namespace Sys2Proof

section Fields
variable (c x y n : Nibble) (nn : Byte) (nnn : Addr)

theorem fieldClass_nnn : fieldClass (c ++ nnn) = c := by
  refine BitVec.eq_of_getLsbD_eq fun i hi => ?_
  rw [fieldClass, BitVec.getLsbD_extractLsb', BitVec.getLsbD_append]
  simp [hi, show ¬ 12 + i < 12 by omega, show 12 + i - 12 = i by omega]

theorem fieldNNN_nnn : fieldNNN (c ++ nnn) = nnn := by
  refine BitVec.eq_of_getLsbD_eq fun i hi => ?_
  rw [fieldNNN, BitVec.getLsbD_extractLsb', BitVec.getLsbD_append]
  simp [hi, show 0 + i = i by omega]

theorem fieldClass_xnn : fieldClass (c ++ x ++ nn) = c := by
  refine BitVec.eq_of_getLsbD_eq fun i hi => ?_
  rw [fieldClass, BitVec.getLsbD_extractLsb', BitVec.getLsbD_append, BitVec.getLsbD_append]
  simp [hi, show ¬ 12 + i < 8 by omega, show ¬ 12 + i - 8 < 4 by omega, show 12 + i - 8 - 4 = i by omega]

theorem fieldX_xnn : fieldX (c ++ x ++ nn) = x := by
  refine BitVec.eq_of_getLsbD_eq fun i hi => ?_
  rw [fieldX, BitVec.getLsbD_extractLsb', BitVec.getLsbD_append, BitVec.getLsbD_append]
  simp [hi, show ¬ 8 + i < 8 by omega, show 8 + i - 8 = i by omega]

theorem fieldNN_xnn : fieldNN (c ++ x ++ nn) = nn := by
  refine BitVec.eq_of_getLsbD_eq fun i hi => ?_
  rw [fieldNN, BitVec.getLsbD_extractLsb', BitVec.getLsbD_append, BitVec.getLsbD_append]
  simp [hi, show 0 + i = i by omega]

theorem fieldClass_xyn : fieldClass (c ++ x ++ y ++ n) = c := by
  refine BitVec.eq_of_getLsbD_eq fun i hi => ?_
  rw [fieldClass, BitVec.getLsbD_extractLsb', BitVec.getLsbD_append, BitVec.getLsbD_append, BitVec.getLsbD_append]
  simp [hi, show ¬ 12 + i < 4 by omega, show ¬ 12 + i - 4 < 4 by omega, show ¬ 12 + i - 4 - 4 < 4 by omega, show 12 + i - 4 - 4 - 4 = i by omega]

theorem fieldX_xyn : fieldX (c ++ x ++ y ++ n) = x := by
  refine BitVec.eq_of_getLsbD_eq fun i hi => ?_
  rw [fieldX, BitVec.getLsbD_extractLsb', BitVec.getLsbD_append, BitVec.getLsbD_append, BitVec.getLsbD_append]
  simp [hi, show ¬ 8 + i < 4 by omega, show ¬ 8 + i - 4 < 4 by omega, show 8 + i - 4 - 4 = i by omega]

theorem fieldY_xyn : fieldY (c ++ x ++ y ++ n) = y := by
  refine BitVec.eq_of_getLsbD_eq fun i hi => ?_
  rw [fieldY, BitVec.getLsbD_extractLsb', BitVec.getLsbD_append, BitVec.getLsbD_append, BitVec.getLsbD_append]
  simp [hi, show ¬ 4 + i < 4 by omega, show 4 + i - 4 = i by omega]

theorem fieldN_xyn : fieldN (c ++ x ++ y ++ n) = n := by
  refine BitVec.eq_of_getLsbD_eq fun i hi => ?_
  rw [fieldN, BitVec.getLsbD_extractLsb', BitVec.getLsbD_append, BitVec.getLsbD_append, BitVec.getLsbD_append]
  simp [hi, show 0 + i = i by omega]

end Fields

/-- A word is its class and its address field. -/
theorem word_of_nnn (w : Word) : fieldClass w ++ fieldNNN w = w := by
  refine BitVec.eq_of_getLsbD_eq fun i hi => ?_
  rw [BitVec.getLsbD_append, fieldClass, fieldNNN, BitVec.getLsbD_extractLsb', BitVec.getLsbD_extractLsb']
  by_cases h : i < 12
  · simp [h]
  · simp [h, show 12 + (i - 12) = i by omega, show i - 12 < 4 by omega]

/-- A word is its class, x and nn. -/
theorem word_of_xnn (w : Word) : fieldClass w ++ fieldX w ++ fieldNN w = w := by
  refine BitVec.eq_of_getLsbD_eq fun i hi => ?_
  rw [BitVec.getLsbD_append, BitVec.getLsbD_append, fieldClass, fieldX, fieldNN]
  simp only [BitVec.getLsbD_extractLsb']
  by_cases h : i < 8
  · simp [h]
  · by_cases h' : i < 12
    · simp [h, show 8 + (i - 8) = i by omega, show i - 8 < 4 by omega]
    · simp [h, show ¬ i - 8 < 4 by omega, show 12 + (i - 8 - 4) = i by omega, show i - 8 - 4 < 4 by omega]

/-- A word is its class, x, y and n. -/
theorem word_of_xyn (w : Word) : fieldClass w ++ fieldX w ++ fieldY w ++ fieldN w = w := by
  refine BitVec.eq_of_getLsbD_eq fun i hi => ?_
  rw [BitVec.getLsbD_append, BitVec.getLsbD_append, BitVec.getLsbD_append, fieldClass, fieldX, fieldY, fieldN]
  simp only [BitVec.getLsbD_extractLsb']
  by_cases h : i < 4
  · simp [h]
  · by_cases h' : i < 8
    · simp [h, show 4 + (i - 4) = i by omega, show i - 4 < 4 by omega]
    · by_cases h'' : i < 12
      · simp [h, show ¬ i - 4 < 4 by omega, show 8 + (i - 4 - 4) = i by omega, show i - 4 - 4 < 4 by omega]
      · simp [h, show ¬ i - 4 < 4 by omega, show ¬ i - 4 - 4 < 4 by omega, show 12 + (i - 4 - 4 - 4) = i by omega,
          show i - 4 - 4 - 4 < 4 by omega]

/-- The word of two bytes as a number, big-endian (R61). -/
theorem wordOfBytes_toNat (a b : Byte) : (wordOfBytes a b).toNat = 256 * a.toNat + b.toNat := by
  rw [wordOfBytes, BitVec.toNat_append, Nat.shiftLeft_eq, ← Nat.mul_comm, Nat.two_pow_add_eq_or_of_lt b.isLt]

/-- The bytes of a word make the word (R61). -/
theorem wordOfBytes_bytes (w : Word) : wordOfBytes (w.extractLsb' 8 8) (w.extractLsb' 0 8) = w := by
  refine BitVec.eq_of_getLsbD_eq fun i hi => ?_
  rw [wordOfBytes, BitVec.getLsbD_append, BitVec.getLsbD_extractLsb', BitVec.getLsbD_extractLsb']
  by_cases h : i < 8
  · simp [h]
  · simp [h, show 8 + (i - 8) = i by omega, show i - 8 < 8 by omega]

end Sys2Proof
end

