-- ==== Sys2Proof/Laws/State.lean ====
section
/-! SUPPORT. Laws/State.lean: what each update of the state leaves in each field and each view, once, so that no later proof
unfolds a record update. -/

namespace Sys2Proof.Machine

variable (s : State)

/-! ### setReg -/

@[simp] theorem State.setReg_mem (x : Reg) (b : Byte) : (s.setReg x b).mem = s.mem := rfl
@[simp] theorem State.setReg_i (x : Reg) (b : Byte) : (s.setReg x b).i = s.i := rfl
@[simp] theorem State.setReg_pc (x : Reg) (b : Byte) : (s.setReg x b).pc = s.pc := rfl
@[simp] theorem State.setReg_stack (x : Reg) (b : Byte) : (s.setReg x b).stack = s.stack := rfl
@[simp] theorem State.setReg_sp (x : Reg) (b : Byte) : (s.setReg x b).sp = s.sp := rfl
@[simp] theorem State.setReg_dt (x : Reg) (b : Byte) : (s.setReg x b).dt = s.dt := rfl
@[simp] theorem State.setReg_st (x : Reg) (b : Byte) : (s.setReg x b).st = s.st := rfl
@[simp] theorem State.setReg_fb (x : Reg) (b : Byte) : (s.setReg x b).fb = s.fb := rfl
@[simp] theorem State.setReg_keys (x : Reg) (b : Byte) : (s.setReg x b).keys = s.keys := rfl
@[simp] theorem State.setReg_fault (x : Reg) (b : Byte) : (s.setReg x b).fault = s.fault := rfl
@[simp] theorem State.setReg_faultPc (x : Reg) (b : Byte) : (s.setReg x b).faultPc = s.faultPc := rfl
@[simp] theorem State.setReg_faultWord (x : Reg) (b : Byte) : (s.setReg x b).faultWord = s.faultWord := rfl
@[simp] theorem State.setReg_reports (x : Reg) (b : Byte) : (s.setReg x b).reports = s.reports := rfl
@[simp] theorem State.setReg_params (x : Reg) (b : Byte) : (s.setReg x b).params = s.params := rfl
@[simp] theorem State.setReg_draws (x : Reg) (b : Byte) : (s.setReg x b).draws = s.draws := rfl
@[simp] theorem State.setReg_memRead (x : Reg) (b : Byte) (a : Nat) : (s.setReg x b).memRead a = s.memRead a := rfl
@[simp] theorem State.setReg_pixel (x : Reg) (b : Byte) (px : Fin 64) (py : Fin 32) : (s.setReg x b).pixel px py = s.pixel px py := rfl
@[simp] theorem State.setReg_isPressed (x : Reg) (b : Byte) (k : Byte) : (s.setReg x b).isPressed k = s.isPressed k := rfl
@[simp] theorem State.setReg_firstPressed (x : Reg) (b : Byte) : (s.setReg x b).firstPressed = s.firstPressed := rfl
@[simp] theorem State.setReg_indexAddr (x : Reg) (b : Byte) (k : Nat) : (s.setReg x b).indexAddr k = s.indexAddr k := rfl

/-! ### setI -/

@[simp] theorem State.setI_mem (w : Word) : (s.setI w).mem = s.mem := rfl
@[simp] theorem State.setI_v (w : Word) : (s.setI w).v = s.v := rfl
@[simp] theorem State.setI_i (w : Word) : (s.setI w).i = w := rfl
@[simp] theorem State.setI_pc (w : Word) : (s.setI w).pc = s.pc := rfl
@[simp] theorem State.setI_stack (w : Word) : (s.setI w).stack = s.stack := rfl
@[simp] theorem State.setI_sp (w : Word) : (s.setI w).sp = s.sp := rfl
@[simp] theorem State.setI_dt (w : Word) : (s.setI w).dt = s.dt := rfl
@[simp] theorem State.setI_st (w : Word) : (s.setI w).st = s.st := rfl
@[simp] theorem State.setI_fb (w : Word) : (s.setI w).fb = s.fb := rfl
@[simp] theorem State.setI_keys (w : Word) : (s.setI w).keys = s.keys := rfl
@[simp] theorem State.setI_fault (w : Word) : (s.setI w).fault = s.fault := rfl
@[simp] theorem State.setI_faultPc (w : Word) : (s.setI w).faultPc = s.faultPc := rfl
@[simp] theorem State.setI_faultWord (w : Word) : (s.setI w).faultWord = s.faultWord := rfl
@[simp] theorem State.setI_reports (w : Word) : (s.setI w).reports = s.reports := rfl
@[simp] theorem State.setI_params (w : Word) : (s.setI w).params = s.params := rfl
@[simp] theorem State.setI_draws (w : Word) : (s.setI w).draws = s.draws := rfl
@[simp] theorem State.setI_reg (w : Word) (r : Reg) : (s.setI w).reg r = s.reg r := rfl
@[simp] theorem State.setI_memRead (w : Word) (a : Nat) : (s.setI w).memRead a = s.memRead a := rfl
@[simp] theorem State.setI_pixel (w : Word) (px : Fin 64) (py : Fin 32) : (s.setI w).pixel px py = s.pixel px py := rfl
@[simp] theorem State.setI_isPressed (w : Word) (k : Byte) : (s.setI w).isPressed k = s.isPressed k := rfl
@[simp] theorem State.setI_firstPressed (w : Word) : (s.setI w).firstPressed = s.firstPressed := rfl

/-! ### setPc -/

@[simp] theorem State.setPc_mem (w : Word) : (s.setPc w).mem = s.mem := rfl
@[simp] theorem State.setPc_v (w : Word) : (s.setPc w).v = s.v := rfl
@[simp] theorem State.setPc_i (w : Word) : (s.setPc w).i = s.i := rfl
@[simp] theorem State.setPc_pc (w : Word) : (s.setPc w).pc = w := rfl
@[simp] theorem State.setPc_stack (w : Word) : (s.setPc w).stack = s.stack := rfl
@[simp] theorem State.setPc_sp (w : Word) : (s.setPc w).sp = s.sp := rfl
@[simp] theorem State.setPc_dt (w : Word) : (s.setPc w).dt = s.dt := rfl
@[simp] theorem State.setPc_st (w : Word) : (s.setPc w).st = s.st := rfl
@[simp] theorem State.setPc_fb (w : Word) : (s.setPc w).fb = s.fb := rfl
@[simp] theorem State.setPc_keys (w : Word) : (s.setPc w).keys = s.keys := rfl
@[simp] theorem State.setPc_fault (w : Word) : (s.setPc w).fault = s.fault := rfl
@[simp] theorem State.setPc_faultPc (w : Word) : (s.setPc w).faultPc = s.faultPc := rfl
@[simp] theorem State.setPc_faultWord (w : Word) : (s.setPc w).faultWord = s.faultWord := rfl
@[simp] theorem State.setPc_reports (w : Word) : (s.setPc w).reports = s.reports := rfl
@[simp] theorem State.setPc_params (w : Word) : (s.setPc w).params = s.params := rfl
@[simp] theorem State.setPc_draws (w : Word) : (s.setPc w).draws = s.draws := rfl
@[simp] theorem State.setPc_reg (w : Word) (r : Reg) : (s.setPc w).reg r = s.reg r := rfl
@[simp] theorem State.setPc_memRead (w : Word) (a : Nat) : (s.setPc w).memRead a = s.memRead a := rfl
@[simp] theorem State.setPc_pixel (w : Word) (px : Fin 64) (py : Fin 32) : (s.setPc w).pixel px py = s.pixel px py := rfl
@[simp] theorem State.setPc_isPressed (w : Word) (k : Byte) : (s.setPc w).isPressed k = s.isPressed k := rfl
@[simp] theorem State.setPc_firstPressed (w : Word) : (s.setPc w).firstPressed = s.firstPressed := rfl
@[simp] theorem State.setPc_indexAddr (w : Word) (k : Nat) : (s.setPc w).indexAddr k = s.indexAddr k := rfl

/-! ### setDt -/

@[simp] theorem State.setDt_mem (b : Byte) : (s.setDt b).mem = s.mem := rfl
@[simp] theorem State.setDt_v (b : Byte) : (s.setDt b).v = s.v := rfl
@[simp] theorem State.setDt_i (b : Byte) : (s.setDt b).i = s.i := rfl
@[simp] theorem State.setDt_pc (b : Byte) : (s.setDt b).pc = s.pc := rfl
@[simp] theorem State.setDt_stack (b : Byte) : (s.setDt b).stack = s.stack := rfl
@[simp] theorem State.setDt_sp (b : Byte) : (s.setDt b).sp = s.sp := rfl
@[simp] theorem State.setDt_dt (b : Byte) : (s.setDt b).dt = b := rfl
@[simp] theorem State.setDt_st (b : Byte) : (s.setDt b).st = s.st := rfl
@[simp] theorem State.setDt_fb (b : Byte) : (s.setDt b).fb = s.fb := rfl
@[simp] theorem State.setDt_keys (b : Byte) : (s.setDt b).keys = s.keys := rfl
@[simp] theorem State.setDt_fault (b : Byte) : (s.setDt b).fault = s.fault := rfl
@[simp] theorem State.setDt_faultPc (b : Byte) : (s.setDt b).faultPc = s.faultPc := rfl
@[simp] theorem State.setDt_faultWord (b : Byte) : (s.setDt b).faultWord = s.faultWord := rfl
@[simp] theorem State.setDt_reports (b : Byte) : (s.setDt b).reports = s.reports := rfl
@[simp] theorem State.setDt_params (b : Byte) : (s.setDt b).params = s.params := rfl
@[simp] theorem State.setDt_draws (b : Byte) : (s.setDt b).draws = s.draws := rfl
@[simp] theorem State.setDt_reg (b : Byte) (r : Reg) : (s.setDt b).reg r = s.reg r := rfl
@[simp] theorem State.setDt_memRead (b : Byte) (a : Nat) : (s.setDt b).memRead a = s.memRead a := rfl
@[simp] theorem State.setDt_pixel (b : Byte) (px : Fin 64) (py : Fin 32) : (s.setDt b).pixel px py = s.pixel px py := rfl
@[simp] theorem State.setDt_isPressed (b : Byte) (k : Byte) : (s.setDt b).isPressed k = s.isPressed k := rfl
@[simp] theorem State.setDt_firstPressed (b : Byte) : (s.setDt b).firstPressed = s.firstPressed := rfl
@[simp] theorem State.setDt_indexAddr (b : Byte) (k : Nat) : (s.setDt b).indexAddr k = s.indexAddr k := rfl

/-! ### setSt -/

@[simp] theorem State.setSt_mem (b : Byte) : (s.setSt b).mem = s.mem := rfl
@[simp] theorem State.setSt_v (b : Byte) : (s.setSt b).v = s.v := rfl
@[simp] theorem State.setSt_i (b : Byte) : (s.setSt b).i = s.i := rfl
@[simp] theorem State.setSt_pc (b : Byte) : (s.setSt b).pc = s.pc := rfl
@[simp] theorem State.setSt_stack (b : Byte) : (s.setSt b).stack = s.stack := rfl
@[simp] theorem State.setSt_sp (b : Byte) : (s.setSt b).sp = s.sp := rfl
@[simp] theorem State.setSt_dt (b : Byte) : (s.setSt b).dt = s.dt := rfl
@[simp] theorem State.setSt_st (b : Byte) : (s.setSt b).st = b := rfl
@[simp] theorem State.setSt_fb (b : Byte) : (s.setSt b).fb = s.fb := rfl
@[simp] theorem State.setSt_keys (b : Byte) : (s.setSt b).keys = s.keys := rfl
@[simp] theorem State.setSt_fault (b : Byte) : (s.setSt b).fault = s.fault := rfl
@[simp] theorem State.setSt_faultPc (b : Byte) : (s.setSt b).faultPc = s.faultPc := rfl
@[simp] theorem State.setSt_faultWord (b : Byte) : (s.setSt b).faultWord = s.faultWord := rfl
@[simp] theorem State.setSt_reports (b : Byte) : (s.setSt b).reports = s.reports := rfl
@[simp] theorem State.setSt_params (b : Byte) : (s.setSt b).params = s.params := rfl
@[simp] theorem State.setSt_draws (b : Byte) : (s.setSt b).draws = s.draws := rfl
@[simp] theorem State.setSt_reg (b : Byte) (r : Reg) : (s.setSt b).reg r = s.reg r := rfl
@[simp] theorem State.setSt_memRead (b : Byte) (a : Nat) : (s.setSt b).memRead a = s.memRead a := rfl
@[simp] theorem State.setSt_pixel (b : Byte) (px : Fin 64) (py : Fin 32) : (s.setSt b).pixel px py = s.pixel px py := rfl
@[simp] theorem State.setSt_isPressed (b : Byte) (k : Byte) : (s.setSt b).isPressed k = s.isPressed k := rfl
@[simp] theorem State.setSt_firstPressed (b : Byte) : (s.setSt b).firstPressed = s.firstPressed := rfl
@[simp] theorem State.setSt_indexAddr (b : Byte) (k : Nat) : (s.setSt b).indexAddr k = s.indexAddr k := rfl

/-! ### setFb -/

@[simp] theorem State.setFb_mem (fb : Framebuffer) : (s.setFb fb).mem = s.mem := rfl
@[simp] theorem State.setFb_v (fb : Framebuffer) : (s.setFb fb).v = s.v := rfl
@[simp] theorem State.setFb_i (fb : Framebuffer) : (s.setFb fb).i = s.i := rfl
@[simp] theorem State.setFb_pc (fb : Framebuffer) : (s.setFb fb).pc = s.pc := rfl
@[simp] theorem State.setFb_stack (fb : Framebuffer) : (s.setFb fb).stack = s.stack := rfl
@[simp] theorem State.setFb_sp (fb : Framebuffer) : (s.setFb fb).sp = s.sp := rfl
@[simp] theorem State.setFb_dt (fb : Framebuffer) : (s.setFb fb).dt = s.dt := rfl
@[simp] theorem State.setFb_st (fb : Framebuffer) : (s.setFb fb).st = s.st := rfl
@[simp] theorem State.setFb_fb (fb : Framebuffer) : (s.setFb fb).fb = fb := rfl
@[simp] theorem State.setFb_keys (fb : Framebuffer) : (s.setFb fb).keys = s.keys := rfl
@[simp] theorem State.setFb_fault (fb : Framebuffer) : (s.setFb fb).fault = s.fault := rfl
@[simp] theorem State.setFb_faultPc (fb : Framebuffer) : (s.setFb fb).faultPc = s.faultPc := rfl
@[simp] theorem State.setFb_faultWord (fb : Framebuffer) : (s.setFb fb).faultWord = s.faultWord := rfl
@[simp] theorem State.setFb_reports (fb : Framebuffer) : (s.setFb fb).reports = s.reports := rfl
@[simp] theorem State.setFb_params (fb : Framebuffer) : (s.setFb fb).params = s.params := rfl
@[simp] theorem State.setFb_draws (fb : Framebuffer) : (s.setFb fb).draws = s.draws := rfl
@[simp] theorem State.setFb_reg (fb : Framebuffer) (r : Reg) : (s.setFb fb).reg r = s.reg r := rfl
@[simp] theorem State.setFb_memRead (fb : Framebuffer) (a : Nat) : (s.setFb fb).memRead a = s.memRead a := rfl
@[simp] theorem State.setFb_isPressed (fb : Framebuffer) (k : Byte) : (s.setFb fb).isPressed k = s.isPressed k := rfl
@[simp] theorem State.setFb_firstPressed (fb : Framebuffer) : (s.setFb fb).firstPressed = s.firstPressed := rfl
@[simp] theorem State.setFb_indexAddr (fb : Framebuffer) (k : Nat) : (s.setFb fb).indexAddr k = s.indexAddr k := rfl

/-! ### memWrite -/

@[simp] theorem State.memWrite_v (addr : Nat) (b : Byte) : (s.memWrite addr b).v = s.v := rfl
@[simp] theorem State.memWrite_i (addr : Nat) (b : Byte) : (s.memWrite addr b).i = s.i := rfl
@[simp] theorem State.memWrite_pc (addr : Nat) (b : Byte) : (s.memWrite addr b).pc = s.pc := rfl
@[simp] theorem State.memWrite_stack (addr : Nat) (b : Byte) : (s.memWrite addr b).stack = s.stack := rfl
@[simp] theorem State.memWrite_sp (addr : Nat) (b : Byte) : (s.memWrite addr b).sp = s.sp := rfl
@[simp] theorem State.memWrite_dt (addr : Nat) (b : Byte) : (s.memWrite addr b).dt = s.dt := rfl
@[simp] theorem State.memWrite_st (addr : Nat) (b : Byte) : (s.memWrite addr b).st = s.st := rfl
@[simp] theorem State.memWrite_fb (addr : Nat) (b : Byte) : (s.memWrite addr b).fb = s.fb := rfl
@[simp] theorem State.memWrite_keys (addr : Nat) (b : Byte) : (s.memWrite addr b).keys = s.keys := rfl
@[simp] theorem State.memWrite_fault (addr : Nat) (b : Byte) : (s.memWrite addr b).fault = s.fault := rfl
@[simp] theorem State.memWrite_faultPc (addr : Nat) (b : Byte) : (s.memWrite addr b).faultPc = s.faultPc := rfl
@[simp] theorem State.memWrite_faultWord (addr : Nat) (b : Byte) : (s.memWrite addr b).faultWord = s.faultWord := rfl
@[simp] theorem State.memWrite_reports (addr : Nat) (b : Byte) : (s.memWrite addr b).reports = s.reports := rfl
@[simp] theorem State.memWrite_params (addr : Nat) (b : Byte) : (s.memWrite addr b).params = s.params := rfl
@[simp] theorem State.memWrite_draws (addr : Nat) (b : Byte) : (s.memWrite addr b).draws = s.draws := rfl
@[simp] theorem State.memWrite_reg (addr : Nat) (b : Byte) (r : Reg) : (s.memWrite addr b).reg r = s.reg r := rfl
@[simp] theorem State.memWrite_pixel (addr : Nat) (b : Byte) (px : Fin 64) (py : Fin 32) : (s.memWrite addr b).pixel px py = s.pixel px py := rfl
@[simp] theorem State.memWrite_isPressed (addr : Nat) (b : Byte) (k : Byte) : (s.memWrite addr b).isPressed k = s.isPressed k := rfl
@[simp] theorem State.memWrite_firstPressed (addr : Nat) (b : Byte) : (s.memWrite addr b).firstPressed = s.firstPressed := rfl
@[simp] theorem State.memWrite_indexAddr (addr : Nat) (b : Byte) (k : Nat) : (s.memWrite addr b).indexAddr k = s.indexAddr k := rfl

/-! ### advance -/

@[simp] theorem State.advance_mem : s.advance.mem = s.mem := rfl
@[simp] theorem State.advance_v : s.advance.v = s.v := rfl
@[simp] theorem State.advance_i : s.advance.i = s.i := rfl
@[simp] theorem State.advance_pc : s.advance.pc = s.pc + 2 := rfl
@[simp] theorem State.advance_stack : s.advance.stack = s.stack := rfl
@[simp] theorem State.advance_sp : s.advance.sp = s.sp := rfl
@[simp] theorem State.advance_dt : s.advance.dt = tick s.dt := rfl
@[simp] theorem State.advance_st : s.advance.st = tick s.st := rfl
@[simp] theorem State.advance_fb : s.advance.fb = s.fb := rfl
@[simp] theorem State.advance_keys : s.advance.keys = s.keys := rfl
@[simp] theorem State.advance_fault : s.advance.fault = s.fault := rfl
@[simp] theorem State.advance_faultPc : s.advance.faultPc = s.faultPc := rfl
@[simp] theorem State.advance_faultWord : s.advance.faultWord = s.faultWord := rfl
@[simp] theorem State.advance_reports : s.advance.reports = s.reports := rfl
@[simp] theorem State.advance_params : s.advance.params = s.params := rfl
@[simp] theorem State.advance_draws : s.advance.draws = s.draws := rfl
@[simp] theorem State.advance_reg (r : Reg) : s.advance.reg r = s.reg r := rfl
@[simp] theorem State.advance_memRead (a : Nat) : s.advance.memRead a = s.memRead a := rfl
@[simp] theorem State.advance_pixel (px : Fin 64) (py : Fin 32) : s.advance.pixel px py = s.pixel px py := rfl
@[simp] theorem State.advance_isPressed (k : Byte) : s.advance.isPressed k = s.isPressed k := rfl
@[simp] theorem State.advance_firstPressed : s.advance.firstPressed = s.firstPressed := rfl
@[simp] theorem State.advance_indexAddr (k : Nat) : s.advance.indexAddr k = s.indexAddr k := rfl

/-! ### addReport -/

@[simp] theorem State.addReport_mem (e : Report) : (s.addReport e).mem = s.mem := rfl
@[simp] theorem State.addReport_v (e : Report) : (s.addReport e).v = s.v := rfl
@[simp] theorem State.addReport_i (e : Report) : (s.addReport e).i = s.i := rfl
@[simp] theorem State.addReport_pc (e : Report) : (s.addReport e).pc = s.pc := rfl
@[simp] theorem State.addReport_stack (e : Report) : (s.addReport e).stack = s.stack := rfl
@[simp] theorem State.addReport_sp (e : Report) : (s.addReport e).sp = s.sp := rfl
@[simp] theorem State.addReport_dt (e : Report) : (s.addReport e).dt = s.dt := rfl
@[simp] theorem State.addReport_st (e : Report) : (s.addReport e).st = s.st := rfl
@[simp] theorem State.addReport_fb (e : Report) : (s.addReport e).fb = s.fb := rfl
@[simp] theorem State.addReport_keys (e : Report) : (s.addReport e).keys = s.keys := rfl
@[simp] theorem State.addReport_fault (e : Report) : (s.addReport e).fault = s.fault := rfl
@[simp] theorem State.addReport_faultPc (e : Report) : (s.addReport e).faultPc = s.faultPc := rfl
@[simp] theorem State.addReport_faultWord (e : Report) : (s.addReport e).faultWord = s.faultWord := rfl
@[simp] theorem State.addReport_reports (e : Report) : (s.addReport e).reports = s.reports ++ [e] := rfl
@[simp] theorem State.addReport_params (e : Report) : (s.addReport e).params = s.params := rfl
@[simp] theorem State.addReport_draws (e : Report) : (s.addReport e).draws = s.draws := rfl
@[simp] theorem State.addReport_reg (e : Report) (r : Reg) : (s.addReport e).reg r = s.reg r := rfl
@[simp] theorem State.addReport_memRead (e : Report) (a : Nat) : (s.addReport e).memRead a = s.memRead a := rfl
@[simp] theorem State.addReport_pixel (e : Report) (px : Fin 64) (py : Fin 32) : (s.addReport e).pixel px py = s.pixel px py := rfl
@[simp] theorem State.addReport_isPressed (e : Report) (k : Byte) : (s.addReport e).isPressed k = s.isPressed k := rfl
@[simp] theorem State.addReport_firstPressed (e : Report) : (s.addReport e).firstPressed = s.firstPressed := rfl
@[simp] theorem State.addReport_indexAddr (e : Report) (k : Nat) : (s.addReport e).indexAddr k = s.indexAddr k := rfl

/-! ### raiseFault -/

@[simp] theorem State.raiseFault_mem (c : FaultCause) (w : Word) : (s.raiseFault c w).mem = s.mem := rfl
@[simp] theorem State.raiseFault_v (c : FaultCause) (w : Word) : (s.raiseFault c w).v = s.v := rfl
@[simp] theorem State.raiseFault_i (c : FaultCause) (w : Word) : (s.raiseFault c w).i = s.i := rfl
@[simp] theorem State.raiseFault_pc (c : FaultCause) (w : Word) : (s.raiseFault c w).pc = s.pc := rfl
@[simp] theorem State.raiseFault_stack (c : FaultCause) (w : Word) : (s.raiseFault c w).stack = s.stack := rfl
@[simp] theorem State.raiseFault_sp (c : FaultCause) (w : Word) : (s.raiseFault c w).sp = s.sp := rfl
@[simp] theorem State.raiseFault_dt (c : FaultCause) (w : Word) : (s.raiseFault c w).dt = s.dt := rfl
@[simp] theorem State.raiseFault_st (c : FaultCause) (w : Word) : (s.raiseFault c w).st = s.st := rfl
@[simp] theorem State.raiseFault_fb (c : FaultCause) (w : Word) : (s.raiseFault c w).fb = s.fb := rfl
@[simp] theorem State.raiseFault_keys (c : FaultCause) (w : Word) : (s.raiseFault c w).keys = s.keys := rfl
@[simp] theorem State.raiseFault_fault (c : FaultCause) (w : Word) : (s.raiseFault c w).fault = c := rfl
@[simp] theorem State.raiseFault_faultPc (c : FaultCause) (w : Word) : (s.raiseFault c w).faultPc = s.pc := rfl
@[simp] theorem State.raiseFault_faultWord (c : FaultCause) (w : Word) : (s.raiseFault c w).faultWord = w := rfl
@[simp] theorem State.raiseFault_reports (c : FaultCause) (w : Word) : (s.raiseFault c w).reports = s.reports ++ [.fault c s.pc w] := rfl
@[simp] theorem State.raiseFault_params (c : FaultCause) (w : Word) : (s.raiseFault c w).params = s.params := rfl
@[simp] theorem State.raiseFault_draws (c : FaultCause) (w : Word) : (s.raiseFault c w).draws = s.draws := rfl
@[simp] theorem State.raiseFault_reg (c : FaultCause) (w : Word) (r : Reg) : (s.raiseFault c w).reg r = s.reg r := rfl
@[simp] theorem State.raiseFault_memRead (c : FaultCause) (w : Word) (a : Nat) : (s.raiseFault c w).memRead a = s.memRead a := rfl
@[simp] theorem State.raiseFault_pixel (c : FaultCause) (w : Word) (px : Fin 64) (py : Fin 32) : (s.raiseFault c w).pixel px py = s.pixel px py := rfl
@[simp] theorem State.raiseFault_isPressed (c : FaultCause) (w : Word) (k : Byte) : (s.raiseFault c w).isPressed k = s.isPressed k := rfl
@[simp] theorem State.raiseFault_firstPressed (c : FaultCause) (w : Word) : (s.raiseFault c w).firstPressed = s.firstPressed := rfl
@[simp] theorem State.raiseFault_indexAddr (c : FaultCause) (w : Word) (k : Nat) : (s.raiseFault c w).indexAddr k = s.indexAddr k := rfl

/-! ### skipIf -/

@[simp] theorem State.skipIf_mem (c : Bool) : (s.skipIf c).mem = s.mem := by cases c <;> rfl
@[simp] theorem State.skipIf_v (c : Bool) : (s.skipIf c).v = s.v := by cases c <;> rfl
@[simp] theorem State.skipIf_i (c : Bool) : (s.skipIf c).i = s.i := by cases c <;> rfl
@[simp] theorem State.skipIf_stack (c : Bool) : (s.skipIf c).stack = s.stack := by cases c <;> rfl
@[simp] theorem State.skipIf_sp (c : Bool) : (s.skipIf c).sp = s.sp := by cases c <;> rfl
@[simp] theorem State.skipIf_dt (c : Bool) : (s.skipIf c).dt = s.dt := by cases c <;> rfl
@[simp] theorem State.skipIf_st (c : Bool) : (s.skipIf c).st = s.st := by cases c <;> rfl
@[simp] theorem State.skipIf_fb (c : Bool) : (s.skipIf c).fb = s.fb := by cases c <;> rfl
@[simp] theorem State.skipIf_keys (c : Bool) : (s.skipIf c).keys = s.keys := by cases c <;> rfl
@[simp] theorem State.skipIf_fault (c : Bool) : (s.skipIf c).fault = s.fault := by cases c <;> rfl
@[simp] theorem State.skipIf_faultPc (c : Bool) : (s.skipIf c).faultPc = s.faultPc := by cases c <;> rfl
@[simp] theorem State.skipIf_faultWord (c : Bool) : (s.skipIf c).faultWord = s.faultWord := by cases c <;> rfl
@[simp] theorem State.skipIf_reports (c : Bool) : (s.skipIf c).reports = s.reports := by cases c <;> rfl
@[simp] theorem State.skipIf_params (c : Bool) : (s.skipIf c).params = s.params := by cases c <;> rfl
@[simp] theorem State.skipIf_draws (c : Bool) : (s.skipIf c).draws = s.draws := by cases c <;> rfl
@[simp] theorem State.skipIf_reg (c : Bool) (r : Reg) : (s.skipIf c).reg r = s.reg r := by cases c <;> rfl
@[simp] theorem State.skipIf_memRead (c : Bool) (a : Nat) : (s.skipIf c).memRead a = s.memRead a := by cases c <;> rfl
@[simp] theorem State.skipIf_pixel (c : Bool) (px : Fin 64) (py : Fin 32) : (s.skipIf c).pixel px py = s.pixel px py := by cases c <;> rfl
@[simp] theorem State.skipIf_isPressed (c : Bool) (k : Byte) : (s.skipIf c).isPressed k = s.isPressed k := by cases c <;> rfl
@[simp] theorem State.skipIf_firstPressed (c : Bool) : (s.skipIf c).firstPressed = s.firstPressed := by cases c <;> rfl
@[simp] theorem State.skipIf_indexAddr (c : Bool) (k : Nat) : (s.skipIf c).indexAddr k = s.indexAddr k := by cases c <;> rfl
@[simp] theorem State.skipIf_pc (c : Bool) : (s.skipIf c).pc = if c then s.pc + 2 else s.pc := by cases c <;> rfl

@[simp] theorem State.setFb_pixel (fb : Framebuffer) (px : Fin 64) (py : Fin 32) :
    (s.setFb fb).pixel px py = Framebuffer.pixel fb px py := rfl

end Sys2Proof.Machine
end

