-- ==== Sys2Proof/Laws/Framebuffer.lean ====
section
/-! SUPPORT. Laws/Framebuffer.lean: what flipping one pixel and drawing one sprite do to each pixel (41_display.md R111 to R116). -/

namespace Sys2Proof.Machine

@[simp] theorem Framebuffer.blank_pixel (px : Fin 64) (py : Fin 32) : Framebuffer.pixel Framebuffer.blank px py = false := by
  simp [Framebuffer.pixel, Framebuffer.blank]

/-- Flipping one pixel inverts it and no other. -/
theorem Framebuffer.flip_pixel (fb : Framebuffer) (x px : Fin 64) (y py : Fin 32) :
    Framebuffer.pixel (Framebuffer.flip fb x y) px py =
      if px = x ∧ py = y then !Framebuffer.pixel fb px py else Framebuffer.pixel fb px py := by
  simp only [Framebuffer.pixel, Framebuffer.flip, Fin.getElem_fin, Vector.getElem_set]
  by_cases hx : px = x
  · subst hx
    by_cases hy : py = y
    · subst hy; simp
    · have : y.val ≠ py.val := fun h => hy (Fin.ext h.symm)
      simp [hy, this]
  · have : x.val ≠ px.val := fun h => hx (Fin.ext h.symm)
    simp [hx, this]

/-- The bits 1 of a sprite: exactly the pairs (c, r) with c < 8 and bit 7 - c of row r set (R114). -/
theorem mem_spriteBits {rows : List Byte} {c r : Nat} :
    (c, r) ∈ spriteBits rows ↔ c < 8 ∧ ∃ row, rows[r]? = some row ∧ row.getLsbD (7 - c) = true := by
  simp only [spriteBits, List.mem_flatMap, List.mem_map, List.mem_filter, List.mem_range, Prod.mk.injEq, Prod.exists,
    List.mem_zipIdx_iff_getElem?]
  constructor
  · rintro ⟨row, r', hr, c', ⟨hc, hbit⟩, rfl, rfl⟩
    exact ⟨hc, row, hr, hbit⟩
  · rintro ⟨hc, row, hr, hbit⟩
    exact ⟨row, r, hr, c, ⟨hc, hbit⟩, rfl, rfl⟩

/-- No bit of a sprite is visited twice. -/
theorem nodup_spriteBits (rows : List Byte) : (spriteBits rows).Nodup := by
  unfold spriteBits
  rw [List.nodup_flatMap]
  refine ⟨fun p _ => ?_, ?_⟩
  · exact (List.nodup_range.filter _).map fun a b h => by simpa using h
  · have h : (rows.zipIdx).Pairwise fun p q => p.2 ≠ q.2 := by
      have := List.nodup_range' (s := 0) (n := rows.length) (step := 1)
      rw [← List.zipIdx_map_snd 0 rows] at this
      exact (List.pairwise_map.1 this).imp fun h => h
    refine h.imp fun {p q} hne => ?_
    simp only [Function.onFun, List.disjoint_left, List.mem_map]
    rintro ⟨c, r⟩ ⟨_, _, h1⟩ ⟨_, _, h2⟩
    exact hne ((Prod.mk.inj h1).2.trans (Prod.mk.inj h2).2.symm)

/-- Within one sprite, two different bits never land on one pixel (R115: "no destination pixel is visited twice"). -/
theorem place_inj {mode : EdgeMode} {x0 y0 : Byte} {c c' r r' : Nat} {p : Fin 64 × Fin 32} (hc : c < 8) (hc' : c' < 8)
    (hr : r < 16) (hr' : r' < 16) (h : place mode x0 y0 c r = some p) (h' : place mode x0 y0 c' r' = some p) :
    c = c' ∧ r = r' := by
  cases mode
  · simp only [place, Option.some.injEq] at h h'
    rw [← h'] at h
    simp only [Prod.mk.injEq, Fin.ext_iff, Fin.val_ofNat] at h
    omega
  · simp only [place] at h h'
    split at h <;> split at h' <;> try contradiction
    simp only [Option.some.injEq] at h h'
    rw [← h'] at h
    simp only [Prod.mk.injEq, Fin.ext_iff, Fin.val_ofNat] at h
    omega

/-- Drawing a list of bits, no two of which land on one pixel: each pixel they reach is inverted once, and the collision value
tells whether one of them was set before. -/
theorem foldl_drawPixel {mode : EdgeMode} {x0 y0 : Byte} (bits : List (Nat × Nat))
    (hdis : bits.Pairwise fun p q => ∀ z, place mode x0 y0 p.1 p.2 = some z → place mode x0 y0 q.1 q.2 ≠ some z)
    (fb : Framebuffer) (hit : Bool) :
    (∀ px py, Framebuffer.pixel (bits.foldl (drawPixel mode x0 y0) (fb, hit)).1 px py =
      (Framebuffer.pixel fb px py ^^ bits.any fun p => place mode x0 y0 p.1 p.2 == some (px, py))) ∧
    ((bits.foldl (drawPixel mode x0 y0) (fb, hit)).2 = true ↔
      hit = true ∨ ∃ p ∈ bits, ∃ px py, place mode x0 y0 p.1 p.2 = some (px, py) ∧ Framebuffer.pixel fb px py = true) := by
  induction bits generalizing fb hit with
  | nil => simp
  | cons q bits ih =>
    obtain ⟨h1, h2⟩ := List.pairwise_cons.1 hdis
    rw [List.foldl_cons]
    rcases hq : place mode x0 y0 q.1 q.2 with _ | ⟨qx, qy⟩
    · have hd : drawPixel mode x0 y0 (fb, hit) q = (fb, hit) := by simp [drawPixel, hq]
      rw [hd]
      obtain ⟨ihp, ihc⟩ := ih h2 fb hit
      exact ⟨fun px py => by rw [ihp]; simp [hq], by rw [ihc]; simp [hq]⟩
    · have hd : drawPixel mode x0 y0 (fb, hit) q = (Framebuffer.flip fb qx qy, hit || Framebuffer.pixel fb qx qy) := by
        simp [drawPixel, hq]
      have hno : ∀ p ∈ bits, place mode x0 y0 p.1 p.2 ≠ some (qx, qy) := fun p hp => h1 p hp _ hq
      rw [hd]
      obtain ⟨ihp, ihc⟩ := ih h2 (Framebuffer.flip fb qx qy) (hit || Framebuffer.pixel fb qx qy)
      constructor
      · intro px py
        rw [ihp, Framebuffer.flip_pixel]
        by_cases hz : px = qx ∧ py = qy
        · obtain ⟨rfl, rfl⟩ := hz
          have : (bits.any fun p => place mode x0 y0 p.1 p.2 == some (px, py)) = false := by
            simpa using fun a b hp => hno (a, b) hp
          simp [hq, this]
        · have hz' : ¬ (qx = px ∧ qy = py) := fun h => hz ⟨h.1.symm, h.2.symm⟩
          simp [hq, hz, hz']
      · rw [ihc]
        have key : ∀ p ∈ bits, ∀ px py, place mode x0 y0 p.1 p.2 = some (px, py) →
            Framebuffer.pixel (Framebuffer.flip fb qx qy) px py = Framebuffer.pixel fb px py := by
          intro p hp px py h
          rw [Framebuffer.flip_pixel, if_neg]
          rintro ⟨rfl, rfl⟩
          exact hno p hp h
        constructor
        · rintro (h | ⟨p, hp, px, py, h, hset⟩)
          · rcases Bool.or_eq_true .. ▸ h with h | h
            · exact .inl h
            · exact .inr ⟨q, by simp, qx, qy, hq, h⟩
          · exact .inr ⟨p, by simp [hp], px, py, h, key p hp px py h ▸ hset⟩
        · rintro (h | ⟨p, hp, px, py, h, hset⟩)
          · exact .inl (by simp [h])
          · rcases List.mem_cons.1 hp with rfl | hp
            · rw [hq] at h; cases h; exact .inl (by simp [hset])
            · exact .inr ⟨p, hp, px, py, h, (key p hp px py h).trans hset⟩

/-- All drawSprite does, for a sprite of at most 15 rows (R111, R115, R119): a pixel some bit 1 lands on is inverted, every
other pixel is as before, and the collision value says whether some bit 1 landed on a set pixel. -/
theorem drawSprite_spec (mode : EdgeMode) (x0 y0 : Byte) (rows : List Byte) (hrows : rows.length ≤ 15) (fb : Framebuffer) :
    (∀ px py, Framebuffer.pixel (drawSprite mode x0 y0 rows fb).1 px py =
      (Framebuffer.pixel fb px py ^^ (spriteBits rows).any fun p => place mode x0 y0 p.1 p.2 == some (px, py))) ∧
    ((drawSprite mode x0 y0 rows fb).2 = true ↔
      ∃ p ∈ spriteBits rows, ∃ px py, place mode x0 y0 p.1 p.2 = some (px, py) ∧ Framebuffer.pixel fb px py = true) := by
  have hlt : ∀ p ∈ spriteBits rows, p.1 < 8 ∧ p.2 < 16 := by
    rintro ⟨c, r⟩ hp
    obtain ⟨hc, row, hr, _⟩ := mem_spriteBits.1 hp
    have := (List.getElem?_eq_some_iff.1 hr).1
    exact ⟨hc, by show r < 16; omega⟩
  have hdis : (spriteBits rows).Pairwise fun p q =>
      ∀ z, place mode x0 y0 p.1 p.2 = some z → place mode x0 y0 q.1 q.2 ≠ some z := by
    refine (nodup_spriteBits rows).imp_of_mem fun {p q} hp hq hne z h h' => hne ?_
    obtain ⟨h1, h2⟩ := place_inj (hlt p hp).1 (hlt q hq).1 (hlt p hp).2 (hlt q hq).2 h h'
    exact Prod.ext h1 h2
  have := foldl_drawPixel (spriteBits rows) hdis fb false
  exact ⟨this.1, this.2.trans (by simp)⟩

end Sys2Proof.Machine
end

