-- ==== Sys2Proof/Laws/Memory.lean ====
section
/-! SUPPORT. Laws/Memory.lean: a read after a write, and that every memory operation keeps the canonical form (R10, R20, R70). -/

namespace Sys2Proof.Machine

theorem Memory.lookup_put (a k : Nat) (b : Byte) (m : List Host.Cell) :
    Memory.lookup k (Memory.put a b m) = if k = a then some b else Memory.lookup k m := by
  induction m with
  | nil => simp [Memory.put, Memory.lookup, eq_comm]
  | cons c m ih =>
    obtain ⟨j, d⟩ := c
    simp only [Memory.put]
    split
    · simp [Memory.lookup, eq_comm]
    · split
      · next h => subst h; simp only [Memory.lookup]; split <;> simp_all [eq_comm]
      · simp only [Memory.lookup, ih]; split <;> simp_all [eq_comm]

theorem Memory.lookup_drop (a k : Nat) (m : List Host.Cell) :
    Memory.lookup k (Memory.drop a m) = if k = a then none else Memory.lookup k m := by
  induction m with
  | nil => simp [Memory.drop, Memory.lookup]
  | cons c m ih =>
    obtain ⟨j, d⟩ := c
    simp only [Memory.drop] at ih
    by_cases h : j = a
    · subst h; simp only [Memory.drop, List.filter, bne_self_eq_false, ih, Memory.lookup]
      split <;> simp_all [eq_comm]
    · have hb : (j != a) = true := by simpa using h
      simp only [Memory.drop, List.filter, hb, Memory.lookup, ih]
      split <;> simp_all

/-- A read after a write: the written cell holds the byte, every other cell is as before. -/
theorem Memory.read_write (font : Font) (m : List Host.Cell) (a k : Nat) (b : Byte) :
    Memory.read font (Memory.write font m a b) k = if k = a then b else Memory.read font m k := by
  unfold Memory.write Memory.read
  split
  · next h => rw [Memory.lookup_drop]; split <;> simp_all
  · rw [Memory.lookup_put]; split <;> simp

/-- MemRead after MemWrite (R10): addresses that agree in their low 12 bits name one cell. -/
@[simp] theorem State.memWrite_memRead (s : State) (addr a : Nat) (b : Byte) :
    (s.memWrite addr b).memRead a = if a % memSize = addr % memSize then b else s.memRead a :=
  Memory.read_write ..

/-- Only the low 12 bits of an address select the cell (R10). -/
theorem State.memRead_mod (s : State) (a : Nat) : s.memRead (a % memSize) = s.memRead a := by
  simp [State.memRead]

/-! ### The canonical form -/

theorem Memory.mem_put {a : Nat} {b : Byte} {m : List Host.Cell} {c : Host.Cell} (h : c ∈ Memory.put a b m) :
    c = (a, b) ∨ c ∈ m := by
  induction m with
  | nil => simpa [Memory.put] using h
  | cons d m ih =>
    obtain ⟨j, e⟩ := d
    simp only [Memory.put] at h
    split at h
    · simpa using h
    · split at h
      · rcases List.mem_cons.1 h with h | h <;> simp [h]
      · rcases List.mem_cons.1 h with h | h
        · simp [h]
        · rcases ih h with h | h <;> simp [h]

theorem Memory.pairwise_put {a : Nat} {b : Byte} {m : List Host.Cell} (h : m.Pairwise (fun c d => c.1 < d.1)) :
    (Memory.put a b m).Pairwise (fun c d => c.1 < d.1) := by
  induction m with
  | nil => simp [Memory.put]
  | cons d m ih =>
    obtain ⟨j, e⟩ := d
    obtain ⟨h1, h2⟩ := List.pairwise_cons.1 h
    simp only [Memory.put]
    split
    · next hlt =>
      refine List.pairwise_cons.2 ⟨fun c hc => ?_, h⟩
      rcases List.mem_cons.1 hc with rfl | hc
      · exact hlt
      · exact Nat.lt_trans hlt (h1 c hc)
    · split
      · next heq => subst heq; exact List.pairwise_cons.2 ⟨h1, h2⟩
      · refine List.pairwise_cons.2 ⟨fun c hc => ?_, ih h2⟩
        rcases Memory.mem_put hc with rfl | hc
        · show j < a; omega
        · exact h1 c hc

theorem Memory.write_wf {font : Font} {m : List Host.Cell} {a : Nat} (b : Byte) (ha : a < memSize)
    (h : Memory.wf font m) : Memory.wf font (Memory.write font m a b) := by
  unfold Memory.write
  split
  · exact ⟨h.1.filter _, fun c hc => h.2 c (List.mem_filter.1 hc).1⟩
  · next hb =>
    refine ⟨Memory.pairwise_put h.1, fun c hc => ?_⟩
    rcases Memory.mem_put hc with rfl | hc
    · exact ⟨ha, hb⟩
    · exact h.2 c hc

/-- MemWrite keeps the canonical form. -/
theorem State.memWrite_wf {s : State} (addr : Nat) (b : Byte) (h : Memory.wf s.params.font s.mem) :
    Memory.wf (s.memWrite addr b).params.font (s.memWrite addr b).mem :=
  Memory.write_wf b (Nat.mod_lt _ (by decide)) h

/-- The memory of the reset state is in canonical form. -/
theorem State.reset_wf : Memory.wf State.reset.params.font State.reset.mem :=
  ⟨List.Pairwise.nil, by simp [State.reset]⟩

/-- `storeBytes` writes memory alone. -/
theorem State.storeBytes_eq (s : State) (addr : Nat) (bytes : List Byte) :
    s.storeBytes addr bytes = { s with mem := (s.storeBytes addr bytes).mem } := by
  induction bytes generalizing s addr with
  | nil => rfl
  | cons b bytes ih => rw [State.storeBytes, ih]; rfl

theorem State.storeBytes_wf {s : State} (addr : Nat) (bytes : List Byte) (h : Memory.wf s.params.font s.mem) :
    Memory.wf (s.storeBytes addr bytes).params.font (s.storeBytes addr bytes).mem := by
  induction bytes generalizing s addr with
  | nil => exact h
  | cons b bytes ih => exact ih _ (State.memWrite_wf addr b h)

/-- All `storeBytes` does below the top of memory: cell addr + k holds byte k, every other cell is as before (R253). -/
theorem State.storeBytes_memRead (s : State) (addr : Nat) (bytes : List Byte) (a : Nat)
    (hb : addr + bytes.length ≤ memSize) (ha : a < memSize) :
    (s.storeBytes addr bytes).memRead a = if addr ≤ a then (bytes[a - addr]?).getD (s.memRead a) else s.memRead a := by
  induction bytes generalizing s addr with
  | nil => simp [State.storeBytes]
  | cons b bytes ih =>
    simp only [List.length_cons] at hb
    rw [State.storeBytes, ih _ _ (by omega)]
    have hm : addr % memSize = addr := Nat.mod_eq_of_lt (by omega)
    have hm' : a % memSize = a := Nat.mod_eq_of_lt ha
    simp only [State.memWrite_memRead, hm, hm']
    by_cases h1 : addr + 1 ≤ a
    · have : a - addr = (a - (addr + 1)) + 1 := by omega
      have h2 : a ≠ addr := by omega
      have h3 : addr ≤ a := by omega
      simp [h1, this, h2, h3]
    · by_cases h2 : a = addr
      · subst h2; simp
      · have h3 : ¬ addr ≤ a := by omega
        simp [h1, h2, h3]

end Sys2Proof.Machine
end

