-- ==== Sys2Proof/Laws/Registers.lean ====
section
/-! SUPPORT. Laws/Registers.lean: reading a register after a write, the timers' tick, the call stack, and the flag values as
numbers. -/

namespace Sys2Proof.Machine

@[simp] theorem State.setReg_reg (s : State) (x r : Reg) (b : Byte) :
    (s.setReg x b).reg r = if r = x then b else s.reg r := by
  simp only [State.reg, State.setReg, Vector.getElem_set, BitVec.toNat_inj]
  by_cases h : x = r
  · simp [h]
  · simp [h, Ne.symm h]

theorem State.setReg_reg_self (s : State) (x : Reg) (b : Byte) : (s.setReg x b).reg x = b := by simp

theorem State.setReg_reg_of_ne (s : State) {x r : Reg} (b : Byte) (h : r ≠ x) : (s.setReg x b).reg r = s.reg r := by
  simp [h]

/-- A timer never goes below zero (R27, R102). -/
@[simp] theorem tick_toNat (t : Byte) : (tick t).toNat = t.toNat - 1 := by
  unfold tick
  split
  · next h => simp [h]
  · next h =>
    have : t.toNat ≠ 0 := fun h0 => h (BitVec.eq_of_toNat_eq (by simpa using h0))
    have := t.isLt
    rw [BitVec.toNat_sub, show (1 : Byte).toNat = 1 from rfl]
    omega

/-- PC two words on, as the natural number of R101. -/
@[simp] theorem toNat_add_two (w : Word) : (w + 2).toNat = (w.toNat + 2) % 65536 := by simp

/-- `bool01` as a number (R13). -/
@[simp] theorem bool01_toNat (c : Bool) : (bool01 c).toNat = c.toNat := by cases c <;> rfl

theorem bool01_eq_ite (p : Prop) [Decidable p] : bool01 (decide p) = if p then 1 else 0 := by
  by_cases h : p <;> simp [bool01, h]

/-- All a push can do: with room it stores at SP and raises SP, with none it answers none (R133). -/
theorem State.push_cases (s : State) (w : Word) :
    (∃ h : s.sp.val < 16, s.push w =
      some { s with stack := s.stack.set s.sp.val w, sp := ⟨s.sp.val + 1, Nat.succ_lt_succ h⟩ }) ∨
    (s.sp.val = 16 ∧ s.push w = none) := by
  unfold State.push
  by_cases h : s.sp.val < 16
  · exact .inl ⟨h, by simp [h]⟩
  · exact .inr ⟨by omega, by simp [h]⟩

/-- All a pop can do: with an entry it answers the top one and lowers SP, with none it answers none (R130). -/
theorem State.pop_cases (s : State) :
    (∃ h : 0 < s.sp.val, s.pop =
      some (s.stack[s.sp.val - 1]'(by omega), { s with sp := ⟨s.sp.val - 1, by omega⟩ })) ∨
    (s.sp.val = 0 ∧ s.pop = none) := by
  unfold State.pop
  by_cases h : 0 < s.sp.val
  · exact .inl ⟨h, by simp [h]⟩
  · exact .inr ⟨by omega, by simp [h]⟩

end Sys2Proof.Machine
end

