-- ==== Sys2Proof/Laws/Step.lean ====
section
/-! SUPPORT. Laws/Step.lean: what a step can do, and the frame of each shared operation. -/

namespace Sys2Proof.Machine

/-- All a step can do: halted it faults; running it executes the decoded instruction or reports the unknown word (R103, R104). -/
theorem step_cases (s : State) :
    (¬s.Running ∧ step s = .fault (.halted s.fault)) ∨
    (s.Running ∧ ∃ i, decode s.params.fx18 s.fetchWord = some i ∧ step s = exec i s) ∨
    (s.Running ∧ decode s.params.fx18 s.fetchWord = none ∧ step s = .next (s.unknownWord s.fetchWord)) := by
  unfold step State.Running
  rcases hf : s.fault with _ | _ | _
  · rcases hd : decode s.params.fx18 s.fetchWord with _ | i <;> simp
  · simp
  · simp

/-- A step with a next state runs on a core that is not halted. -/
theorem step_next {s t : State} (h : step s = .next t) :
    s.Running ∧ ((∃ i, decode s.params.fx18 s.fetchWord = some i ∧ exec i s = .next t) ∨
      (decode s.params.fx18 s.fetchWord = none ∧ t = s.unknownWord s.fetchWord)) := by
  rcases step_cases s with ⟨_, h1⟩ | ⟨hr, i, hd, h1⟩ | ⟨hr, hd, h1⟩
  · rw [h1] at h; cases h
  · exact ⟨hr, .inl ⟨i, hd, h1 ▸ h⟩⟩
  · rw [h1] at h; cases h; exact ⟨hr, .inr ⟨hd, rfl⟩⟩

/-! ### PC -/

theorem State.advance_baseline (s : State) : s.PcBaseline s.advance := toNat_add_two s.pc

theorem State.PcBaseline.of_pc {s t : State} (h : t.pc = s.pc + 2) : s.PcBaseline t := by
  rw [State.PcBaseline, h, toNat_add_two]

/-- A skip leaves PC two or four past the step's word by its condition (R106). -/
theorem State.skipIf_afterSkip (s : State) (c : Bool) : s.PcAfterSkip (s.advance.skipIf c) (c = true) := by
  refine ⟨fun h => ?_, fun h => State.PcBaseline.of_pc (by simp [h])⟩
  simp only [State.PcSkipped, State.skipIf_pc, h, if_true, State.advance_pc, toNat_add_two]
  omega

/-! ### Frames -/

theorem State.advance_frame (s : State) : s.Frame [] [] s.advance := by
  simp [State.Frame]

theorem State.skipIf_frame (s : State) (c : Bool) : s.Frame [] [] (s.advance.skipIf c) := by
  simp [State.Frame]

theorem State.setPc_frame (s : State) (w : Word) : s.Frame [] [] (s.advance.setPc w) := by
  simp [State.Frame]

theorem State.setReg_frame (s : State) (x : Reg) (b : Byte) : s.Frame [] [x] (s.advance.setReg x b) := by
  simp +contextual [State.Frame]

theorem State.setReg_setReg_frame (s : State) (x : Reg) (a b : Byte) :
    s.Frame [] [x, vf] ((s.advance.setReg vf a).setReg x b) := by
  simp +contextual [State.Frame]

theorem State.setI_frame (s : State) (w : Word) : s.Frame [.index] [] (s.advance.setI w) := by
  simp [State.Frame]

theorem State.unknownWord_frame (s : State) (w : Word) : s.Frame [.reports] [] (s.unknownWord w) := by
  simp [State.Frame, State.unknownWord]

end Sys2Proof.Machine
end

