-- ==== Sys2Proof/Laws/Blocks.lean ====
section
/-! SUPPORT. Laws/Blocks.lean: all that BCD, block store and block load do to memory and registers (44_index_memory.md R183 to
R185), and how a sprite's rows cover pixels (41_display.md). -/

namespace Sys2Proof.Machine

theorem State.storeBlock_succ (s : State) (n : Nat) :
    s.storeBlock (n + 1) = (s.storeBlock n).memWrite ((s.storeBlock n).indexAddr n) ((s.storeBlock n).reg (regOf n)) := by
  simp [State.storeBlock, List.range_succ, List.foldl_append]

theorem State.loadBlock_succ (s : State) (n : Nat) :
    s.loadBlock (n + 1) = (s.loadBlock n).setReg (regOf n) ((s.loadBlock n).memRead ((s.loadBlock n).indexAddr n)) := by
  simp [State.loadBlock, List.range_succ, List.foldl_append]

/-- A block store changes memory alone. -/
theorem State.storeBlock_eq (s : State) (n : Nat) : s.storeBlock n = { s with mem := (s.storeBlock n).mem } := by
  induction n with
  | zero => rfl
  | succ n ih => rw [State.storeBlock_succ, ih]; rfl

/-- A block load changes V0..VF alone. -/
theorem State.loadBlock_eq (s : State) (n : Nat) : s.loadBlock n = { s with v := (s.loadBlock n).v } := by
  induction n with
  | zero => rfl
  | succ n ih => rw [State.loadBlock_succ, ih]; rfl

@[simp] theorem State.storeBlock_reg (s : State) (n : Nat) (r : Reg) : (s.storeBlock n).reg r = s.reg r := by
  rw [State.storeBlock_eq]; rfl
@[simp] theorem State.storeBlock_i (s : State) (n : Nat) : (s.storeBlock n).i = s.i := by rw [State.storeBlock_eq]
@[simp] theorem State.storeBlock_indexAddr (s : State) (n k : Nat) : (s.storeBlock n).indexAddr k = s.indexAddr k := by
  rw [State.storeBlock_eq]; rfl
@[simp] theorem State.loadBlock_i (s : State) (n : Nat) : (s.loadBlock n).i = s.i := by rw [State.loadBlock_eq]
@[simp] theorem State.loadBlock_indexAddr (s : State) (n k : Nat) : (s.loadBlock n).indexAddr k = s.indexAddr k := by
  rw [State.loadBlock_eq]; rfl
@[simp] theorem State.loadBlock_memRead (s : State) (n a : Nat) : (s.loadBlock n).memRead a = s.memRead a := by
  rw [State.loadBlock_eq]; rfl

theorem regOf_toNat (r : Reg) : regOf r.toNat = r := by simp [regOf]

/-- A block load of up to 16 registers: V[r] holds its cell when r is in the block and its old value otherwise (R185). -/
theorem State.loadBlock_reg (s : State) {n : Nat} (hn : n ≤ 16) (r : Reg) :
    (s.loadBlock n).reg r = if r.toNat < n then s.memRead (s.indexAddr r.toNat) else s.reg r := by
  induction n with
  | zero => simp [State.loadBlock]
  | succ n ih =>
    rw [State.loadBlock_succ, State.setReg_reg, ih (by omega)]
    have hr : (regOf n).toNat = n := by simp [regOf, BitVec.toNat_ofNat]; omega
    by_cases h : r = regOf n
    · subst h; simp [hr]
    · have : r.toNat ≠ n := fun h' => h (by rw [← h', regOf_toNat])
      rw [if_neg h]
      by_cases h' : r.toNat < n
      · rw [if_pos h', if_pos (by omega)]
      · rw [if_neg h', if_neg (by omega)]

/-- A block store writes only the cells of its block. -/
theorem State.storeBlock_memRead_of_out (s : State) (n a : Nat) (h : ∀ k, k < n → a % 4096 ≠ s.indexAddr k % 4096) :
    (s.storeBlock n).memRead a = s.memRead a := by
  induction n with
  | zero => rfl
  | succ n ih =>
    rw [State.storeBlock_succ, State.memWrite_memRead, if_neg, ih fun k hk => h k (by omega)]
    rw [State.storeBlock_indexAddr]
    exact h n (by omega)

/-- A block store of up to 16 registers puts V[k] into cell I + k (R184). -/
theorem State.storeBlock_memRead (s : State) {n k : Nat} (hn : n ≤ 16) (hk : k < n) :
    (s.storeBlock n).memRead (s.indexAddr k) = s.reg (regOf k) := by
  induction n with
  | zero => omega
  | succ n ih =>
    rw [State.storeBlock_succ, State.memWrite_memRead, State.storeBlock_indexAddr]
    by_cases h : k = n
    · subst h; simp
    · rw [if_neg, ih (by omega) (by omega)]
      simp only [State.indexAddr, memSize]
      omega

theorem State.storeBlock_wf {s : State} (n : Nat) (h : Memory.wf s.params.font s.mem) :
    Memory.wf (s.storeBlock n).params.font (s.storeBlock n).mem := by
  induction n with
  | zero => exact h
  | succ n ih => rw [State.storeBlock_succ]; exact State.memWrite_wf _ _ ih

/-! ### Sprites -/

/-- Row r of the sprite at I (R112). -/
theorem State.spriteRows_getElem? (s : State) (n : Nibble) (r : Nat) :
    (s.spriteRows n)[r]? = if r < n.toNat then some (s.memRead (s.indexAddr r)) else none := by
  simp only [State.spriteRows, List.getElem?_map]
  by_cases h : r < n.toNat <;> simp [h]

theorem State.spriteRows_length (s : State) (n : Nibble) : (s.spriteRows n).length ≤ 15 := by
  have := n.isLt
  simp only [State.spriteRows, List.length_map, List.length_range]
  omega

/-- The bits of the rows at I that land on a pixel are those that cover it (R111 to R116). -/
theorem State.spriteCovers_iff (s : State) (x y : Reg) (n : Nibble) (px : Fin 64) (py : Fin 32) :
    s.SpriteCovers x y n px py ↔
      ∃ p ∈ spriteBits (s.spriteRows n), place s.params.edge (s.reg x) (s.reg y) p.1 p.2 = some (px, py) := by
  constructor
  · rintro ⟨r, c, hr, hc, hb, hp⟩
    exact ⟨(c, r), mem_spriteBits.2 ⟨hc, _, (s.spriteRows_getElem? n r).trans (if_pos hr), hb⟩, hp⟩
  · rintro ⟨⟨c, r⟩, hm, hp⟩
    obtain ⟨hc, row, hr, hb⟩ := mem_spriteBits.1 hm
    rw [State.spriteRows_getElem?] at hr
    split at hr
    · next h => cases hr; exact ⟨r, c, h, hc, hb, hp⟩
    · cases hr

end Sys2Proof.Machine
end

