-- ==== Sys2Proof/Laws/PerInstr.lean ====
section
/-! SUPPORT. Laws/PerInstr.lean: family Row: the word of each instruction matches its row of spec/opcode_table.json, that is,
the row's mask leaves the row's match. -/

namespace Sys2Proof.Laws.Row

/-- The mask of an instruction's row of opcode_table.json. -/
def mask : Instr → Word
  | .cls => 0xFFFF#16
  | .ret => 0xFFFF#16
  | .sys _ => 0xF000#16
  | .jp _ => 0xF000#16
  | .call _ => 0xF000#16
  | .seImm _ _ => 0xF000#16
  | .sneImm _ _ => 0xF000#16
  | .seReg _ _ => 0xF00F#16
  | .ldImm _ _ => 0xF000#16
  | .addImm _ _ => 0xF000#16
  | .ldReg _ _ => 0xF00F#16
  | .orReg _ _ => 0xF00F#16
  | .andReg _ _ => 0xF00F#16
  | .xorReg _ _ => 0xF00F#16
  | .addReg _ _ => 0xF00F#16
  | .sub _ _ => 0xF00F#16
  | .shr _ _ => 0xF00F#16
  | .subn _ _ => 0xF00F#16
  | .shl _ _ => 0xF00F#16
  | .sneReg _ _ => 0xF00F#16
  | .ldI _ => 0xF000#16
  | .jpV0 _ => 0xF000#16
  | .rnd _ _ => 0xF000#16
  | .drw _ _ _ => 0xF000#16
  | .skp _ => 0xF0FF#16
  | .sknp _ => 0xF0FF#16
  | .ldVxDt _ => 0xF0FF#16
  | .ldVxK _ => 0xF0FF#16
  | .ldDtVx _ => 0xF0FF#16
  | .ldStVx _ => 0xF0FF#16
  | .addI _ => 0xF0FF#16
  | .ldF _ => 0xF0FF#16
  | .ldB _ => 0xF0FF#16
  | .ldIndStore _ => 0xF0FF#16
  | .ldIndLoad _ => 0xF0FF#16

/-- The match of an instruction's row of opcode_table.json. -/
def pattern : Instr → Word
  | .cls => 0x00E0#16
  | .ret => 0x00EE#16
  | .sys _ => 0x0000#16
  | .jp _ => 0x1000#16
  | .call _ => 0x2000#16
  | .seImm _ _ => 0x3000#16
  | .sneImm _ _ => 0x4000#16
  | .seReg _ _ => 0x5000#16
  | .ldImm _ _ => 0x6000#16
  | .addImm _ _ => 0x7000#16
  | .ldReg _ _ => 0x8000#16
  | .orReg _ _ => 0x8001#16
  | .andReg _ _ => 0x8002#16
  | .xorReg _ _ => 0x8003#16
  | .addReg _ _ => 0x8004#16
  | .sub _ _ => 0x8005#16
  | .shr _ _ => 0x8006#16
  | .subn _ _ => 0x8007#16
  | .shl _ _ => 0x800E#16
  | .sneReg _ _ => 0x9000#16
  | .ldI _ => 0xA000#16
  | .jpV0 _ => 0xB000#16
  | .rnd _ _ => 0xC000#16
  | .drw _ _ _ => 0xD000#16
  | .skp _ => 0xE09E#16
  | .sknp _ => 0xE0A1#16
  | .ldVxDt _ => 0xF007#16
  | .ldVxK _ => 0xF00A#16
  | .ldDtVx _ => 0xF015#16
  | .ldStVx _ => 0xF018#16
  | .addI _ => 0xF01E#16
  | .ldF _ => 0xF029#16
  | .ldB _ => 0xF033#16
  | .ldIndStore _ => 0xF055#16
  | .ldIndLoad _ => 0xF065#16

/-- The word of i matches the row of i. -/
def Statement (i : Instr) : Prop := encode i &&& mask i = pattern i

theorem and_nnn (c : Nibble) (nnn : Addr) : (c ++ nnn : Word) &&& 0xF000#16 = c ++ 0#12 := by
  refine BitVec.eq_of_getLsbD_eq fun i hi => ?_
  rw [BitVec.getLsbD_and, BitVec.getLsbD_append, BitVec.getLsbD_append]
  interval_cases i <;> simp

theorem and_xnn (c x : Nibble) (nn : Byte) : (c ++ x ++ nn : Word) &&& 0xF000#16 = c ++ 0#4 ++ 0#8 := by
  refine BitVec.eq_of_getLsbD_eq fun i hi => ?_
  rw [BitVec.getLsbD_and, BitVec.getLsbD_append, BitVec.getLsbD_append, BitVec.getLsbD_append, BitVec.getLsbD_append]
  interval_cases i <;> simp

theorem and_x (c x : Nibble) (nn : Byte) : (c ++ x ++ nn : Word) &&& 0xF0FF#16 = c ++ 0#4 ++ nn := by
  refine BitVec.eq_of_getLsbD_eq fun i hi => ?_
  rw [BitVec.getLsbD_and, BitVec.getLsbD_append, BitVec.getLsbD_append, BitVec.getLsbD_append, BitVec.getLsbD_append]
  interval_cases i <;> simp

theorem and_xy (c x y n : Nibble) : (c ++ x ++ y ++ n : Word) &&& 0xF00F#16 = c ++ 0#4 ++ 0#4 ++ n := by
  refine BitVec.eq_of_getLsbD_eq fun i hi => ?_
  rw [BitVec.getLsbD_and, BitVec.getLsbD_append, BitVec.getLsbD_append, BitVec.getLsbD_append, BitVec.getLsbD_append,
    BitVec.getLsbD_append, BitVec.getLsbD_append]
  interval_cases i <;> simp

theorem and_xyn (c x y n : Nibble) : (c ++ x ++ y ++ n : Word) &&& 0xF000#16 = c ++ 0#4 ++ 0#4 ++ 0#4 := by
  refine BitVec.eq_of_getLsbD_eq fun i hi => ?_
  rw [BitVec.getLsbD_and, BitVec.getLsbD_append, BitVec.getLsbD_append, BitVec.getLsbD_append, BitVec.getLsbD_append,
    BitVec.getLsbD_append, BitVec.getLsbD_append]
  interval_cases i <;> simp

theorem cls : Statement (.cls) := rfl
theorem ret : Statement (.ret) := rfl
theorem sys (nnn : Addr) : Statement (.sys nnn) := and_nnn 0x0#4 nnn
theorem jp (nnn : Addr) : Statement (.jp nnn) := and_nnn 0x1#4 nnn
theorem call (nnn : Addr) : Statement (.call nnn) := and_nnn 0x2#4 nnn
theorem seImm (x : Reg) (nn : Byte) : Statement (.seImm x nn) := and_xnn 0x3#4 x nn
theorem sneImm (x : Reg) (nn : Byte) : Statement (.sneImm x nn) := and_xnn 0x4#4 x nn
theorem seReg (x y : Reg) : Statement (.seReg x y) := and_xy 0x5#4 x y 0x0#4
theorem ldImm (x : Reg) (nn : Byte) : Statement (.ldImm x nn) := and_xnn 0x6#4 x nn
theorem addImm (x : Reg) (nn : Byte) : Statement (.addImm x nn) := and_xnn 0x7#4 x nn
theorem ldReg (x y : Reg) : Statement (.ldReg x y) := and_xy 0x8#4 x y 0x0#4
theorem orReg (x y : Reg) : Statement (.orReg x y) := and_xy 0x8#4 x y 0x1#4
theorem andReg (x y : Reg) : Statement (.andReg x y) := and_xy 0x8#4 x y 0x2#4
theorem xorReg (x y : Reg) : Statement (.xorReg x y) := and_xy 0x8#4 x y 0x3#4
theorem addReg (x y : Reg) : Statement (.addReg x y) := and_xy 0x8#4 x y 0x4#4
theorem sub (x y : Reg) : Statement (.sub x y) := and_xy 0x8#4 x y 0x5#4
theorem shr (x y : Reg) : Statement (.shr x y) := and_xy 0x8#4 x y 0x6#4
theorem subn (x y : Reg) : Statement (.subn x y) := and_xy 0x8#4 x y 0x7#4
theorem shl (x y : Reg) : Statement (.shl x y) := and_xy 0x8#4 x y 0xE#4
theorem sneReg (x y : Reg) : Statement (.sneReg x y) := and_xy 0x9#4 x y 0x0#4
theorem ldI (nnn : Addr) : Statement (.ldI nnn) := and_nnn 0xA#4 nnn
theorem jpV0 (nnn : Addr) : Statement (.jpV0 nnn) := and_nnn 0xB#4 nnn
theorem rnd (x : Reg) (nn : Byte) : Statement (.rnd x nn) := and_xnn 0xC#4 x nn
theorem drw (x y : Reg) (n : Nibble) : Statement (.drw x y n) := and_xyn 0xD#4 x y n
theorem skp (x : Reg) : Statement (.skp x) := and_x 0xE#4 x 0x9E#8
theorem sknp (x : Reg) : Statement (.sknp x) := and_x 0xE#4 x 0xA1#8
theorem ldVxDt (x : Reg) : Statement (.ldVxDt x) := and_x 0xF#4 x 0x07#8
theorem ldVxK (x : Reg) : Statement (.ldVxK x) := and_x 0xF#4 x 0x0A#8
theorem ldDtVx (x : Reg) : Statement (.ldDtVx x) := and_x 0xF#4 x 0x15#8
theorem ldStVx (x : Reg) : Statement (.ldStVx x) := and_x 0xF#4 x 0x18#8
theorem addI (x : Reg) : Statement (.addI x) := and_x 0xF#4 x 0x1E#8
theorem ldF (x : Reg) : Statement (.ldF x) := and_x 0xF#4 x 0x29#8
theorem ldB (x : Reg) : Statement (.ldB x) := and_x 0xF#4 x 0x33#8
theorem ldIndStore (x : Reg) : Statement (.ldIndStore x) := and_x 0xF#4 x 0x55#8
theorem ldIndLoad (x : Reg) : Statement (.ldIndLoad x) := and_x 0xF#4 x 0x65#8

end Sys2Proof.Laws.Row
end

