-- ==== Sys2Proof/Tests/Slice0.lean ====
section
/-! SUPPORT. Tests/Slice0.lean: words from the encodings of 30_encoding.md, vectors of 95_test_vectors.md (the id of each is in its
comment), the WellFormed smoke test, and for each statement with hypotheses a witness that meets them. -/

namespace Sys2Proof.Tests

open Sys2Proof.Machine

/-- The start state of 95_test_vectors.md section 0: after reset() and clear(), every key released. -/
def start : State := State.reset.hostClear

/-- s with the word under test at its PC. -/
def withWord (s : State) (w : Nat) : State := s.withFetchWord 16 w

/-- s with register x set. -/
def withReg (s : State) (x : Reg) (b : Byte) : State := s.setReg x b

/-- What one step of s with word w shows through f. -/
def after {α : Type} (s : State) (w : Nat) (f : State → α) : Option α :=
  match step (withWord s w) with
  | .next t => some (f t)
  | _ => none

/-- s with the listed pixels inverted. -/
def withPixels (s : State) (ps : List (Fin 64 × Fin 32)) : State :=
  s.setFb (ps.foldl (fun fb p => Framebuffer.flip fb p.1 p.2) s.fb)

/-- The number of set pixels. -/
def lit (s : State) : Nat := (s.fb.toList.map fun c => c.toList.count true).sum

/-! ### WellFormed refuses -/

theorem test_wellFormed_refuses_sys_cls : wellFormed .setSoundTimer (.sys 0x0E0#12) = false := by decide
theorem test_wellFormed_refuses_sys_ret : wellFormed .setSoundTimer (.sys 0x0EE#12) = false := by decide
theorem test_wellFormed_refuses_fx18 : wellFormed .decodeError (.ldStVx 3) = false := by decide
theorem test_wellFormed_admits : wellFormed .decodeError (.sys 0x0E1#12) = true ∧ wellFormed .setSoundTimer (.ldStVx 3) = true := by
  decide

/-! ### Decoding: words bit by bit from R83's patterns -/

theorem test_decode_class0 :
    [0b0000000011100000, 0b0000000011101110, 0b0000000100100011, 0b0000000011100001].map (decodeTableWord 16) =
      [some .cls, some .ret, some (.sys 0x123), some (.sys 0x0E1)] := by decide
theorem test_decode_flow :
    [0b0001001000110100, 0b0010001100000000, 0b0011001101000010, 0b0100001101000010, 0b0101000100100000, 0b1001000100100000,
      0b1011111111111110].map (decodeTableWord 16) =
      [some (.jp 0x234), some (.call 0x300), some (.seImm 3 0x42), some (.sneImm 3 0x42), some (.seReg 1 2),
        some (.sneReg 1 2), some (.jpV0 0xFFE)] := by decide
theorem test_decode_alu :
    [0b0110101000101111, 0b0111001000100000, 0b1000000101010000, 0b1000000100100001, 0b1000000100100010, 0b1000000100100011,
      0b1000000100100100, 0b1000000100100101, 0b1000000100100110, 0b1000000100100111, 0b1000000100101110,
      0b1100001100001111].map (decodeTableWord 16) =
      [some (.ldImm 0xA 0x2F), some (.addImm 2 0x20), some (.ldReg 1 5), some (.orReg 1 2), some (.andReg 1 2),
        some (.xorReg 1 2), some (.addReg 1 2), some (.sub 1 2), some (.shr 1 2), some (.subn 1 2), some (.shl 1 2),
        some (.rnd 3 0x0F)] := by decide
theorem test_decode_display_index :
    [0b1101000100100101, 0b1010001011110000, 0b1111000100011110, 0b1111000100101001, 0b1111001100110011, 0b1111001001010101,
      0b1111001001100101].map (decodeTableWord 16) =
      [some (.drw 1 2 5), some (.ldI 0x2F0), some (.addI 1), some (.ldF 1), some (.ldB 3), some (.ldIndStore 2),
        some (.ldIndLoad 2)] := by decide
theorem test_decode_keys_timers :
    [0b1110010110011110, 0b1110010110100001, 0b1111001100000111, 0b1111000100001010, 0b1111001000010101,
      0b1111001000011000].map (decodeTableWord 16) =
      [some (.skp 5), some (.sknp 5), some (.ldVxDt 3), some (.ldVxK 1), some (.ldDtVx 2), some (.ldStVx 2)] := by decide
/-- ST-4, ST-5: unknown words. -/
theorem test_decode_unknown :
    [0x5121, 0x8128, 0x812F, 0x9121, 0xE000, 0xE19F, 0xF0FF, 0xF100, 0xF016].map (decodeTableWord 16) =
      List.replicate 9 none := by decide
/-- KT-16. -/
theorem test_decode_fx18_mode : decode .decodeError 0xF218 = none := by decide

/-! ### The step -/

/-- ST-4. -/
theorem test_unknown_word :
    after (start.setDt 3) 0x5121 (fun t => (t.pc, t.dt, t.reports)) = some (0x202, 2, [.decodeError 0x200 0x5121]) := by decide
/-- ST-7. -/
theorem test_fetch_wraps :
    after (start.setPc 0xFFFF) 0x1234 (fun t => (t.pc, t.memRead 0xFFF, t.memRead 0)) = some (0x0234, 0x12, 0x34) := by decide
/-- ST-6. -/
theorem test_pc_wraps : after (start.setPc 0xFFFE) 0x0000 (fun t => t.pc) = some 0 := by decide
/-- EX-1. -/
theorem test_halted : (match step { start with fault := .stackOverflow } with
    | .fault r => some r
    | _ => none) = some (.halted .stackOverflow) := by decide
/-- R220: the cause codes. -/
theorem test_fault_codes : [FaultCause.none, .stackOverflow, .stackUnderflow].map faultCode = [0, 1, 2] := by decide

/-! ### Display -/

/-- DS-12. -/
theorem test_cls :
    after (withReg (withPixels start [(3, 4), (63, 31)]) vf 5) 0x00E0 (fun t => (lit t, t.reg vf, t.pc)) =
      some (0, 5, 0x202) := by decide
/-- DS-5: wrap at both edges. -/
theorem test_drw_wrap :
    after ((withReg (withReg start 0 60) 1 31).setI 0x300 |>.memWrite 0x300 0xFF) 0xD011
      (fun t => (t.pixel 63 31, t.pixel 3 31, t.pixel 4 31, lit t, t.reg vf)) = some (true, true, false, 8, 0) := by decide
/-- DS-10: a coordinate in VF, and a collision with nothing. -/
theorem test_drw_vf :
    after ((withReg (withReg start vf 9) 2 3).setI 0x300 |>.memWrite 0x300 0x80) 0xDF21
      (fun t => (t.pixel 9 3, lit t, t.reg vf)) = some (true, 1, 0) := by decide
/-- DS-8: a collision. -/
theorem test_drw_collision :
    after ((withPixels start [(2, 0), (5, 1)]).setI 0x300 |>.memWrite 0x300 0xF0 |>.memWrite 0x301 0x0F) 0xD002
      (fun t => (t.pixel 2 0, t.pixel 3 0, t.pixel 5 1, t.pixel 4 1, lit t, t.reg vf)) =
        some (false, true, false, true, 6, 1) := by decide
/-- DS-6: clip drops columns 64..67. -/
theorem test_drw_clip :
    after ((withReg (withReg { start with params := { start.params with edge := .clip } } 0 60) 1 31).setI 0x300
      |>.memWrite 0x300 0xFF) 0xD011 (fun t => (t.pixel 60 31, t.pixel 63 31, lit t)) = some (true, true, 4) := by decide

/-! ### Control flow -/

/-- FL-1. -/
theorem test_call : after start 0x2300 (fun t => (t.stack[0], t.sp, t.pc)) = some (0x202, 1, 0x300) := by decide
/-- FL-3. -/
theorem test_call_overflow :
    after { start with dt := 5, sp := 16 } 0x2400 (fun t => (t.fault, t.faultPc, t.faultWord, t.pc, t.dt)) =
      some (.stackOverflow, 0x200, 0x2400, 0x200, 5) ∧
    after { start with dt := 5, sp := 16 } 0x2400 (fun t => t.reports) =
      some [.fault .stackOverflow 0x200 0x2400] := by decide
/-- FL-2. -/
theorem test_ret :
    after { start with sp := 1, stack := start.stack.set 0 0x204 } 0x00EE (fun t => (t.sp, t.pc, t.stack[0])) =
      some (0, 0x204, 0x204) := by decide
/-- FL-4. -/
theorem test_ret_underflow :
    after { start with dt := 5 } 0x00EE (fun t => (t.fault, t.faultPc, t.faultWord, t.pc, t.dt)) =
      some (.stackUnderflow, 0x200, 0x00EE, 0x200, 5) ∧
    after { start with dt := 5 } 0x00EE (fun t => t.reports) =
      some [.fault .stackUnderflow 0x200 0x00EE] := by decide
/-- ST-2. -/
theorem test_sys : after (start.setPc 0x300) 0x0123 (fun t => (t.pc, t.reports)) = some (0x302, []) := by decide
/-- FL-5. -/
theorem test_jp : after start 0x1234 (fun t => t.pc) = some 0x234 := by decide
/-- FL-8, FL-9, FL-10. -/
theorem test_seImm : after (withReg start 3 0x42) 0x3342 (fun t => t.pc) = some 0x204 ∧
    after (withReg start 3 0x41) 0x3342 (fun t => t.pc) = some 0x202 ∧
    after (start.setPc 0xFFFE) 0x3000 (fun t => t.pc) = some 0x0002 := by decide
/-- FL-11, FL-12. -/
theorem test_sneImm : after (withReg start 3 0x41) 0x4342 (fun t => t.pc) = some 0x204 ∧
    after (withReg start 3 0x42) 0x4342 (fun t => t.pc) = some 0x202 := by decide
/-- FL-13. -/
theorem test_seReg : after (withReg (withReg start 1 7) 2 7) 0x5120 (fun t => t.pc) = some 0x204 := by decide
/-- FL-15, FL-16. -/
theorem test_sneReg : after (withReg (withReg start 1 7) 2 8) 0x9120 (fun t => t.pc) = some 0x204 ∧
    after (withReg start 1 7) 0x9110 (fun t => t.pc) = some 0x202 := by decide
/-- FL-18, FL-19. -/
theorem test_jpV0 : after (withReg start 0 0xFF) 0xBFFF (fun t => t.pc) = some 0x10FE ∧
    after (withReg start vf 1) 0xBF00 (fun t => t.pc) = some 0xF00 := by decide

/-! ### Registers and arithmetic -/

/-- AL-1. -/
theorem test_ldImm : after start 0x6A2F (fun t => t.reg 0xA) = some 0x2F := by decide
/-- AL-2, AL-3. -/
theorem test_addImm : after (withReg start 2 0xF0) 0x7220 (fun t => (t.reg 2, t.reg vf)) = some (0x10, 0) ∧
    after (withReg start vf 0xFF) 0x7F01 (fun t => t.reg vf) = some 0 := by decide
/-- AL-4. -/
theorem test_ldReg : after (withReg start 5 0x33) 0x8150 (fun t => t.reg 1) = some 0x33 := by decide
/-- AL-9. -/
theorem test_orReg :
    after (withReg (withReg (withReg start 1 0x0C) 2 0x0A) vf 1) 0x8121 (fun t => (t.reg 1, t.reg vf)) = some (0x0E, 1) := by
  decide
/-- AL-6. -/
theorem test_andReg : after (withReg (withReg start 1 0x0C) 2 0x0A) 0x8122 (fun t => t.reg 1) = some 0x08 := by decide
/-- AL-7. -/
theorem test_xorReg : after (withReg (withReg start 1 0x0C) 2 0x0A) 0x8123 (fun t => t.reg 1) = some 0x06 := by decide
/-- AL-10, AA-1. -/
theorem test_addReg :
    after (withReg (withReg start 1 0xFF) 2 1) 0x8124 (fun t => (t.reg 1, t.reg vf)) = some (0, 1) ∧
    after (withReg (withReg start vf 0xFF) 2 1) 0x8F24 (fun t => t.reg vf) = some 0 := by decide
/-- AL-16, AA-3. -/
theorem test_sub :
    after (withReg (withReg start 1 5) 2 5) 0x8125 (fun t => (t.reg 1, t.reg vf)) = some (0, 0) ∧
    after (withReg (withReg start vf 5) 2 3) 0x8F25 (fun t => t.reg vf) = some 0xFE := by decide
/-- AA-11: y is VF. -/
theorem test_sub_y_vf :
    after (withReg (withReg start vf 3) 1 5) 0x81F5 (fun t => (t.reg 1, t.reg vf)) = some (4, 1) := by decide
/-- AL-20, AA-5. -/
theorem test_shr : after (withReg (withReg start 1 3) 2 0xFF) 0x8126 (fun t => (t.reg 1, t.reg vf)) = some (1, 1) ∧
    after (withReg start vf 3) 0x8F26 (fun t => t.reg vf) = some 0 := by decide
/-- AL-25, AA-6. -/
theorem test_subn :
    after (withReg (withReg start 1 2) 2 1) 0x8127 (fun t => (t.reg 1, t.reg vf)) = some (0xFF, 0) ∧
    after (withReg (withReg start vf 3) 2 5) 0x8F27 (fun t => t.reg vf) = some 4 := by decide
/-- AA-13: y is VF. -/
theorem test_subn_y_vf :
    after (withReg (withReg start vf 5) 1 3) 0x81F7 (fun t => (t.reg 1, t.reg vf)) = some (0xFE, 1) := by decide
/-- AL-29, AA-8. -/
theorem test_shl : after (withReg start 1 0x81) 0x812E (fun t => (t.reg 1, t.reg vf)) = some (2, 1) ∧
    after (withReg start vf 0x81) 0x8F2E (fun t => t.reg vf) = some 2 := by decide
/-- RN-1: the state after when the environment supplies 0xA7. -/
theorem test_rnd : ((rndWith 0xA7 3 0x0F start).reg 3, (rndWith 0xA7 3 0x0F start).pc) = (0x07, 0x202) := by decide
/-- RN-2: with nn = 0 the result is 0 and a byte is still drawn. -/
theorem test_rnd_zero : after (withReg start 3 5) 0xC300 (fun t => t.draws) = some 1 := by decide

/-! ### Index register and memory -/

/-- IM-1. -/
theorem test_ldI : after start 0xA2F0 (fun t => t.i) = some 0x2F0 := by decide
/-- IM-2, IM-3. -/
theorem test_addI : after (withReg (start.setI 0x0FFE) 1 5) 0xF11E (fun t => (t.i, t.reg vf)) = some (0x1003, 0) ∧
    after (withReg (start.setI 0xFFFF) 1 2) 0xF11E (fun t => t.i) = some 1 := by decide
/-- IM-5, IM-7. -/
theorem test_ldF : after (withReg start 1 0x0A) 0xF129 (fun t => t.i) = some 0x32 ∧
    after (withReg start 1 0xFF) 0xF129 (fun t => t.i) = some 0x4FB := by decide
/-- IM-9: across the top of memory, into the font. -/
theorem test_ldB : after (withReg (start.setI 0xFFE) 1 255) 0xF133
    (fun t => (t.memRead 0xFFE, t.memRead 0xFFF, t.memRead 0, t.memRead 1, t.i)) = some (2, 5, 5, 0x90, 0xFFE) := by decide
/-- IM-12: across the top of memory, I not masked. -/
theorem test_ldIndStore : after (withReg (withReg (start.setI 0xFFF) 0 0xAA) 1 0xBB) 0xF155
    (fun t => (t.memRead 0xFFF, t.memRead 0, t.memRead 1, t.i)) = some (0xAA, 0xBB, 0x90, 0x1001) := by decide
/-- IM-14. -/
theorem test_ldIndLoad :
    after (withReg (start.setI 0x400) 3 9 |>.memWrite 0x400 1 |>.memWrite 0x401 2 |>.memWrite 0x402 3) 0xF265
      (fun t => (t.reg 0, t.reg 1, t.reg 2, t.reg 3, t.i)) = some (1, 2, 3, 9, 0x403) := by decide

/-! ### Keys and timers -/

/-- KT-1, KT-4. -/
theorem test_skp : after (withReg (start.setKey 7) 5 7) 0xE59E (fun t => t.pc) = some 0x204 ∧
    after (withReg { start with keys := Vector.replicate 16 true } 5 0x17) 0xE59E (fun t => t.pc) = some 0x202 := by decide
/-- KT-3, KT-5. -/
theorem test_sknp : after (withReg start 5 7) 0xE5A1 (fun t => t.pc) = some 0x204 ∧
    after (withReg { start with keys := Vector.replicate 16 true } 5 0x17) 0xE5A1 (fun t => t.pc) = some 0x204 := by decide
/-- KT-10, KT-11. -/
theorem test_ldVxDt : after (start.setDt 10) 0xF307 (fun t => (t.dt, t.reg 3)) = some (9, 9) ∧
    after (start.setDt 1) 0xF307 (fun t => (t.dt, t.reg 3)) = some (0, 0) := by decide
/-- KT-7. -/
theorem test_ldVxK_lowest : after ((start.setKey 3).setKey 9) 0xF10A (fun t => (t.reg 1, t.pc)) = some (3, 0x202) := by decide
/-- KT-8, one step. -/
theorem test_ldVxK_waits : after ((start.setDt 5).setSt 3) 0xF10A (fun t => (t.pc, t.dt, t.st, t.reg 1)) =
    some (0x200, 4, 2, 0) := by decide
/-- KT-13. -/
theorem test_ldDtVx : after (withReg (start.setDt 9) 2 60) 0xF215 (fun t => t.dt) = some 60 := by decide
/-- KT-15, KT-17. -/
theorem test_ldStVx : after (withReg start 2 30) 0xF218 (fun t => t.st) = some 30 ∧
    after (start.setSt 1) 0xF018 (fun t => t.st) = some 0 := by decide
/-- KT-16. -/
theorem test_ldStVx_decodeError :
    after (withReg { start with params := { start.params with fx18 := .decodeError } } 2 30) 0xF218
      (fun t => (t.st, t.pc, t.reports)) = some (0, 0x202, [.decodeError 0x200 0xF218]) := by decide

/-! ### Reset and load -/

/-- RS-1. -/
theorem test_hostReset :
    let s := (withReg (withPixels (start.setKey 2) [(1, 1)]) 3 9).setI 0x345 |>.setDt 7 |>.memWrite 0x19 0 |>.memWrite 0x300 7
    let t := s.hostReset
    (t.memRead 0x19, t.memRead 0x300, t.reg 3, t.i, t.dt, t.pc) = (0xF0, 0, 0, 0, 0, 0x200) ∧
      t.pixel 1 1 = true ∧ t.keys[2] = true := by decide
/-- RS-4, the first step. -/
theorem test_load_and_step : (match loadProgram [0x12, 0x00] start with
    | .next s => some (s.fetchWord, (match step s with | .next t => t.pc | _ => 0))
    | _ => none) = some (0x1200, 0x200) := by decide
/-- RS-3. -/
theorem test_load_too_long : (match loadProgram (List.replicate 3585 0) start with
    | .refused r => some r
    | _ => none) = some (.programTooLong 3585) := by
  rw [loadProgram, if_neg (by rw [List.length_replicate]; decide), List.length_replicate]

/-! ### Witnesses: the hypotheses of each statement are met together -/

theorem start_inv : start.Inv := ⟨State.reset_wf, fun _ => ⟨rfl, rfl⟩, nofun, nofun⟩

theorem witness_DecodeOfEncode : wellFormed .decodeError (.sys 0xFFF#12) = true ∧ wellFormed .setSoundTimer (.ldStVx 0xF) = true := by
  decide
theorem witness_EncodeOfDecode : decode .setSoundTimer 0x8FF6#16 = some (.shr 0xF 0xF) := by decide
theorem witness_StepRunsDecodedInstruction :
    (withWord start 0x8124).Running ∧
      decode (withWord start 0x8124).params.fx18 (withWord start 0x8124).fetchWord = some (.addReg 1 2) := by decide
theorem witness_FetchIsBigEndian : (start.setPc 0xFFFF).pc.toNat % 4096 = 4095 := by decide
theorem witness_UnknownWordIsReported :
    (withWord start 0x5121).Running ∧
      decode (withWord start 0x5121).params.fx18 (withWord start 0x5121).fetchWord = none := by decide
theorem witness_HaltedCoreTakesNoStep : ¬({ start with fault := .stackUnderflow } : State).Running := by decide
theorem witness_TimersTickOncePerStep :
    ∃ t, step start = .next t ∧ t.Running ∧ (∀ x, decode start.params.fx18 start.fetchWord ≠ some (.ldDtVx x)) ∧
      ∀ x, decode start.params.fx18 start.fetchWord ≠ some (.ldStVx x) :=
  ⟨_, rfl, rfl, by decide, by decide⟩
theorem witness_PcAfterEveryInstruction :
    (start.setKey 3).Running ∧ (∃ t, exec (.ldVxK 1) (start.setKey 3) = .next t ∧ t.Running) ∧
      (∃ k : Fin 16, (start.setKey 3).keys[k] = true) ∧ ∀ k : Fin 16, start.keys[k] = false :=
  ⟨rfl, ⟨_, rfl, rfl⟩, by decide, by decide⟩
theorem witness_StepKeepsInvariant : start.Inv ∧ ∃ t, step start = .next t := ⟨start_inv, _, rfl⟩
/-- The invariant's two fault clauses are met by states a fault leaves. -/
theorem witness_Inv_faults :
    (start.raiseFault .stackUnderflow 0x00EE).Inv ∧
      ({ start with sp := 16 } : State).sp.val = 16 ∧
      ({ start with sp := 16 } : State).Inv ∧ (State.raiseFault { start with sp := 16 } .stackOverflow 0x2400).Inv :=
  ⟨⟨State.reset_wf, nofun, nofun, fun _ => ⟨rfl, rfl, rfl⟩⟩, rfl, ⟨State.reset_wf, fun _ => ⟨rfl, rfl⟩, nofun, nofun⟩,
    ⟨State.reset_wf, nofun, fun _ => ⟨rfl, rfl, by decide⟩, nofun⟩⟩
theorem witness_HostActionsKeepInvariant :
    start.Inv ∧ (∃ t, loadProgram [0x12, 0x00] start = .next t) ∧ ∃ t, boot [0x12, 0x00] start = .next t :=
  ⟨start_inv, ⟨_, rfl⟩, _, rfl⟩
theorem witness_StepKeepsLatchAndParameters : ∃ t, step start = .next t := ⟨_, rfl⟩
theorem witness_ReportsAreAppendOnlyOutput : ∃ t, step (withWord start 0x5121) = .next t := ⟨_, rfl⟩
theorem witness_OnlyBcdAndBlockStoreWriteMemory :
    (∃ t, exec (.ldB 1) (start.setI 0xFFE) = .next t) ∧
      (∀ k, k < 3 → 1 % 4096 ≠ (start.setI 0xFFE).indexAddr k % 4096) ∧
      (∃ t, exec (.ldIndStore 0xF) start = .next t) ∧ ∀ k, k < 16 → 16 % 4096 ≠ start.indexAddr k % 4096 :=
  ⟨⟨_, rfl⟩, by decide, ⟨_, rfl⟩, by decide⟩
theorem witness_OnlyClearAndDrawChangePixels :
    (∃ t, exec (.jp 0) start = .next t) ∧ Instr.jp 0 ≠ .cls ∧ ∀ x y n, Instr.jp 0 ≠ .drw x y n := ⟨⟨_, rfl⟩, nofun, nofun⟩
theorem witness_VfChangesOnlyAsFlagOrDestination : ∃ t, exec (.ldImm vf 7) start = .next t ∧ t.reg vf ≠ start.reg vf :=
  ⟨_, rfl, by decide⟩
theorem witness_OnlyCallAndReturnTouchStack :
    (∃ t, exec (.jp 0) start = .next t) ∧ (∀ nnn, Instr.jp 0 ≠ .call nnn) ∧ Instr.jp 0 ≠ .ret := ⟨⟨_, rfl⟩, nofun, nofun⟩
theorem witness_OnlyIndexInstructionsWriteI : ∃ t, exec (.ldI 0x300) start = .next t ∧ t.i ≠ start.i := ⟨_, rfl, by decide⟩
/-- A start whose sprite has a bit in the grid, on clear pixels; and one where a covered pixel is set. -/
theorem witness_DrwXorsSprite_DrawingTwiceCancels :
    (1 : Reg) ≠ vf ∧ (2 : Reg) ≠ vf ∧ start.SpriteCovers 1 2 1 0 0 ∧ (∀ px py, start.pixel px py = false) ∧
      (withPixels start [(0, 0)]).SpriteCovers 1 2 1 0 0 ∧ (withPixels start [(0, 0)]).pixel 0 0 = true ∧
      ¬start.SpriteCovers 1 2 0 0 0 :=
  ⟨by decide, by decide, ⟨0, 0, by decide, by decide, by decide, by decide⟩, fun px py => by simp [start, State.hostClear, State.pixel,
    State.setFb, Framebuffer.pixel, Framebuffer.blank], ⟨0, 0, by decide, by decide, by decide, by decide⟩, by decide,
    fun ⟨r, _, hr, _⟩ => absurd hr (Nat.not_lt_zero r)⟩
theorem witness_SysJumpAndIndexedJump : (0x0E1 : Addr) ≠ 0x0E0#12 ∧ (0x0E1 : Addr) ≠ 0x0EE#12 := by decide
theorem witness_CallPushesOrOverflows :
    start.sp.val < 16 ∧ ({ start with sp := 15 } : State).sp.val < 16 ∧ ({ start with sp := 16 } : State).sp.val = 16 := by decide
theorem witness_RetPopsOrUnderflows : 0 < ({ start with sp := 1 } : State).sp.val ∧ start.sp.val = 0 := by decide
theorem witness_StackFaultIsPreciseAndHalts :
    (let s := withWord { start with sp := 16 } 0x2FFF
     s.Running ∧ s.sp.val = 16 ∧ decode s.params.fx18 s.fetchWord = some (.call 0xFFF)) ∧
    (let s := withWord start 0x00EE
     s.Running ∧ s.sp.val = 0 ∧ decode s.params.fx18 s.fetchWord = some .ret) := by decide
theorem witness_CallThenReturnRestoresPc : ({ start with sp := 15 } : State).sp.val < 16 := by decide
theorem witness_Skips :
    (withReg start 3 0x42).reg 3 = 0x42 ∧ start.reg 3 ≠ 0x42 ∧ start.reg 1 = start.reg 2 ∧
      (withReg start 1 7).reg 1 ≠ (withReg start 1 7).reg 2 ∧ (0xF : Nibble) ≠ 0 := by decide
/-- The register cases of ADD, SUB, SUBN, SHR and SHL: neither, x, y, or both are VF. -/
theorem witness_FlagAliasing : (0xE : Reg) ≠ vf ∧ (0 : Reg) ≠ vf ∧ (0xF : Reg) = vf := by decide
theorem witness_Rnd_bit : ((rndWith 0xA7 3 0x0F start).reg 3).getLsbD 0 = true := by decide
theorem witness_BlockStore_BlockLoad :
    (0xF : Reg).toNat ≤ (0xF : Reg).toNat ∧ (0 : Reg).toNat ≤ (0 : Reg).toNat ∧
      ∀ k, k < (0xF : Reg).toNat + 1 → 16 % 4096 ≠ start.indexAddr k % 4096 := by decide
theorem witness_ReadReturnsLastWrite : 0x1000 % 4096 = 0 % 4096 ∧ 0xFFF % 4096 ≠ 0x1000 % 4096 := by decide
theorem witness_KeySkipsReadLatch :
    (∃ k : Fin 16, k.val = ((withReg (start.setKey 15) 5 15).reg 5).toNat ∧ (withReg (start.setKey 15) 5 15).keys[k] = true) ∧
      ¬∃ k : Fin 16, k.val = ((withReg (start.setKey 0) 5 16).reg 5).toNat ∧ (withReg (start.setKey 0) 5 16).keys[k] = true := by
  decide
theorem witness_KeyWaitTakesLowestOrRepeats :
    ((start.setKey 15).keys[(15 : Fin 16)] = true ∧ ∀ j : Fin 16, j < 15 → (start.setKey 15).keys[j] = false) ∧
      ∀ k : Fin 16, start.keys[k] = false := by decide
theorem witness_KeyWaitNeverProceedsAlone :
    (withWord start 0xF10A).Running ∧
      decode (withWord start 0xF10A).params.fx18 (withWord start 0xF10A).fetchWord = some (.ldVxK 1) ∧
      ∀ k : Fin 16, (withWord start 0xF10A).keys[k] = false := by decide
theorem witness_SoundTimerWriteByMode :
    start.params.fx18 = .setSoundTimer ∧
      ({ start with params := { start.params with fx18 := .decodeError } } : State).params.fx18 = .decodeError := by decide
theorem witness_ResetLeavesResetValues : 79 < 80 ∧ 80 ≤ 80 ∧ 80 ≤ 4095 ∧ 4095 < 4096 := by decide
theorem witness_LoadProgramCopiesOrRefuses :
    (List.replicate 3584 (0 : Byte)).length ≤ 3584 ∧ 3584 < (List.replicate 3585 (0 : Byte)).length ∧
      (0x1FF < 0x200 ∧ 0x1FF < 4096) ∧ 0x200 + ([0x12, 0x00] : List Byte).length ≤ 0x202 := by
  refine ⟨?_, ?_, by decide, by decide⟩
  · rw [List.length_replicate]
  · rw [List.length_replicate]
    decide

end Sys2Proof.Tests
end

section
/-! Which pieces of state each instruction may write (10_state.md R20 to R36), as one frame over all instructions, with the two
stack faults set apart. -/

namespace Sys2Proof.Machine

/-! ### The instructions whose effect has cases, one equation per case -/

/-- CALL with room pushes the already-advanced PC (R133). -/
theorem exec_call_of_lt (nnn : Addr) {s : State} (h : s.sp.val < 16) :
    exec (.call nnn) s = .next { s.advance with
      pc := addrOf nnn, stack := s.stack.set s.sp.val (s.pc + 2), sp := ⟨s.sp.val + 1, Nat.succ_lt_succ h⟩ } := by
  show execCall nnn s = _
  rcases s.advance.push_cases s.advance.pc with ⟨_, hp⟩ | ⟨hfull, _⟩
  · rw [execCall, hp]; rfl
  · exact absurd hfull (Nat.ne_of_lt h)

/-- CALL on a full stack takes the fault STACK_OVERFLOW (R223). -/
theorem exec_call_of_full (nnn : Addr) {s : State} (h : s.sp.val = 16) :
    exec (.call nnn) s = .next (s.raiseFault .stackOverflow (encode (.call nnn))) := by
  show execCall nnn s = _
  rcases s.advance.push_cases s.advance.pc with ⟨hroom, _⟩ | ⟨_, hp⟩
  · exact absurd h (Nat.ne_of_lt hroom)
  · rw [execCall, hp]

/-- RET with an entry takes PC from the top one, which keeps its value (R130). -/
theorem exec_ret_of_pos {s : State} (h : 0 < s.sp.val) :
    exec .ret s = .next { s.advance with
      pc := s.stack[s.sp.val - 1]'(by omega), sp := ⟨s.sp.val - 1, by omega⟩ } := by
  show execRet s = _
  rcases s.advance.pop_cases with ⟨_, hp⟩ | ⟨hempty, _⟩
  · rw [execRet, hp]; rfl
  · exact absurd hempty (Nat.ne_of_gt h)

/-- RET on an empty stack takes the fault STACK_UNDERFLOW (R225). -/
theorem exec_ret_of_empty {s : State} (h : s.sp.val = 0) :
    exec .ret s = .next (s.raiseFault .stackUnderflow (encode .ret)) := by
  show execRet s = _
  rcases s.advance.pop_cases with ⟨hpos, _⟩ | ⟨_, hp⟩
  · exact absurd h (Nat.ne_of_gt hpos)
  · rw [execRet, hp]

/-- The key wait takes the first pressed key (R205). -/
theorem exec_ldVxK_of_pressed (x : Reg) {s : State} {k : Byte} (h : s.firstPressed = some k) :
    exec (.ldVxK x) s = .next (s.advance.setReg x k) := by
  show execLdVxK x s = _
  rw [execLdVxK, State.advance_firstPressed, h]

/-- The key wait goes back to its own word while no key is pressed (R205). -/
theorem exec_ldVxK_of_released (x : Reg) {s : State} (h : s.firstPressed = none) :
    exec (.ldVxK x) s = .next (s.advance.setPc (s.advance.pc - 2)) := by
  show execLdVxK x s = _
  rw [execLdVxK, State.advance_firstPressed, h]

/-- Fx18 writes ST under set_sound_timer (R207). -/
theorem exec_ldStVx_of_setSoundTimer (x : Reg) {s : State} (h : s.params.fx18 = .setSoundTimer) :
    exec (.ldStVx x) s = .next (s.advance.setSt (s.advance.reg x)) := by
  show execLdStVx x s = _
  rw [execLdStVx, h]

/-- Fx18 is only reported under decode_error (R207). -/
theorem exec_ldStVx_of_decodeError (x : Reg) {s : State} (h : s.params.fx18 = .decodeError) :
    exec (.ldStVx x) s = .next (s.unknownWord (encode (.ldStVx x))) := by
  show execLdStVx x s = _
  rw [execLdStVx, h]

theorem State.sp_lt_or_full (s : State) : s.sp.val < 16 ∨ s.sp.val = 16 := by omega

theorem State.sp_pos_or_empty (s : State) : 0 < s.sp.val ∨ s.sp.val = 0 := by omega

/-! ### Frames of the operations that Laws/Step.lean has none for -/

theorem State.stack_frame (s : State) (w : Word) (stack : Vector Word 16) (sp : Fin 17) :
    s.Frame [.stack] [] { s.advance with pc := w, stack := stack, sp := sp } := by
  simp [State.Frame, State.reg, State.pixel, State.memRead, State.advance]

theorem State.setFb_frame (s : State) (fb : Framebuffer) : s.Frame [.pixels] [] (s.advance.setFb fb) := by
  simp [State.Frame]

theorem State.setFb_setReg_frame (s : State) (fb : Framebuffer) (x : Reg) (b : Byte) :
    s.Frame [.pixels] [x] ((s.advance.setFb fb).setReg x b) := by
  simp +contextual [State.Frame]

theorem State.setDt_frame (s : State) (b : Byte) : s.Frame [.delay] [] (s.advance.setDt b) := by
  simp [State.Frame]

theorem State.setSt_frame (s : State) (b : Byte) : s.Frame [.sound] [] (s.advance.setSt b) := by
  simp [State.Frame]

theorem rndWith_frame (r : Byte) (x : Reg) (nn : Byte) (s : State) : s.Frame [.draws] [x] (rndWith r x nn s) := by
  refine ⟨(s.setReg_frame x (r &&& nn)).1, ?_⟩
  simp [rndWith, State.pixel, State.memRead]

/-- Any number of memory writes after the common part. -/
theorem State.mem_frame (s : State) (m : List Host.Cell) : s.Frame [.memory] [] { s.advance with mem := m } := by
  simp [State.Frame, State.reg, State.pixel, State.advance]

theorem State.storeBlock_bumpIndex_frame (s : State) (n : Nat) (x : Reg) :
    s.Frame [.index, .memory] [] ((s.advance.storeBlock n).bumpIndex x) := by
  rw [State.storeBlock_eq]
  simp [State.Frame, State.bumpIndex, State.reg, State.pixel, State.advance, State.setI]

/-- The registers of a block 0..x (R184, R185). -/
def blockRegs (x : Reg) : List Reg := (List.range (x.toNat + 1)).map regOf

theorem mem_blockRegs {x r : Reg} : r ∈ blockRegs x ↔ r.toNat ≤ x.toNat := by
  simp only [blockRegs, List.mem_map, List.mem_range, Nat.lt_succ_iff]
  constructor
  · rintro ⟨k, hk, rfl⟩
    exact Nat.le_trans (by simpa [regOf] using Nat.mod_le k 16) hk
  · exact fun h => ⟨r.toNat, h, regOf_toNat r⟩

theorem State.loadBlock_bumpIndex_frame (s : State) (x : Reg) :
    s.Frame [.index] (blockRegs x) ((s.advance.loadBlock (x.toNat + 1)).bumpIndex x) := by
  refine ⟨fun r hr => ?_, ?_⟩
  · rw [mem_blockRegs] at hr
    rw [State.bumpIndex, State.setI_reg, State.loadBlock_reg _ (by omega), if_neg (by omega), State.advance_reg]
  · rw [State.loadBlock_eq]
    simp [State.bumpIndex, State.pixel, State.memRead, State.advance, State.setI]

/-! ### The frame of every instruction -/

/-- The parts of state an instruction may write when it takes no fault. Fx18 reports under decode_error (R207). -/
def writtenParts : Instr → List Part
  | .cls | .drw _ _ _ => [.pixels]
  | .ret | .call _ => [.stack]
  | .ldI _ | .addI _ | .ldF _ | .ldIndLoad _ => [.index]
  | .ldIndStore _ => [.index, .memory]
  | .ldB _ => [.memory]
  | .ldDtVx _ => [.delay]
  | .ldStVx _ => [.sound, .reports]
  | .rnd _ _ => [.draws]
  | _ => []

/-- The registers an instruction may write. -/
def writtenRegs : Instr → List Reg
  | .ldImm x _ | .addImm x _ | .ldReg x _ | .orReg x _ | .andReg x _ | .xorReg x _ | .rnd x _ | .ldVxDt x | .ldVxK x => [x]
  | .addReg x _ | .sub x _ | .shr x _ | .subn x _ | .shl x _ => [x, vf]
  | .drw _ _ _ => [vf]
  | .ldIndLoad x => blockRegs x
  | _ => []

/-- From s instruction i takes its stack fault, which leaves t (R223 to R225). -/
inductive StackFault (s : State) : Instr → State → Prop where
  | overflow (nnn : Addr) (h : s.sp.val = 16) :
    StackFault s (.call nnn) (s.raiseFault .stackOverflow (encode (.call nnn)))
  | underflow (h : s.sp.val = 0) : StackFault s .ret (s.raiseFault .stackUnderflow (encode .ret))

theorem index_mem_writtenParts {i : Instr} (h : .index ∈ writtenParts i) :
    (∃ nnn, i = .ldI nnn) ∨ ∃ x, i = .addI x ∨ i = .ldF x ∨ i = .ldIndStore x ∨ i = .ldIndLoad x := by
  cases i <;> simp_all [writtenParts]

theorem stack_mem_writtenParts {i : Instr} (h : .stack ∈ writtenParts i) : (∃ nnn, i = .call nnn) ∨ i = .ret := by
  cases i <;> simp_all [writtenParts]

theorem pixels_mem_writtenParts {i : Instr} (h : .pixels ∈ writtenParts i) : i = .cls ∨ ∃ x y n, i = .drw x y n := by
  cases i <;> simp_all [writtenParts]

theorem vf_mem_blockRegs {x : Reg} : vf ∈ blockRegs x ↔ x = vf := by
  rw [mem_blockRegs, ← BitVec.toNat_inj]
  show 15 ≤ x.toNat ↔ x.toNat = 15
  omega

/-- VF is written as a flag or as the destination (R22, R162). -/
theorem vf_mem_writtenRegs {i : Instr} (h : vf ∈ writtenRegs i) :
    (∃ x y, i = .addReg x y ∨ i = .sub x y ∨ i = .shr x y ∨ i = .subn x y ∨ i = .shl x y ∨ ∃ n, i = .drw x y n) ∨
    (∃ nn, i = .ldImm vf nn ∨ i = .addImm vf nn ∨ i = .rnd vf nn) ∨
    (∃ y, i = .ldReg vf y ∨ i = .orReg vf y ∨ i = .andReg vf y ∨ i = .xorReg vf y) ∨
    i = .ldVxDt vf ∨ i = .ldVxK vf ∨ i = .ldIndLoad vf := by
  cases i <;> simp_all [writtenRegs, vf_mem_blockRegs, eq_comm]

theorem StackFault.eq_raiseFault {s t : State} {i : Instr} (h : StackFault s i t) : ∃ c w, t = s.raiseFault c w := by
  cases h <;> exact ⟨_, _, rfl⟩

/-- A frame that names less is a frame that names more. -/
theorem State.Frame.mono {ws ws' : List Part} {rs rs' : List Reg} {s t : State} (h : s.Frame ws rs t) (hw : ws ⊆ ws')
    (hr : rs ⊆ rs') : s.Frame ws' rs' t := by
  obtain ⟨hreg, hi, hstack, hdt, hst, hfb, hmem, hrep, hdraws, hrest⟩ := h
  have up {p : Part} (hp : p ∉ ws') : p ∉ ws := fun h => hp (hw h)
  exact ⟨fun r h => hreg r fun h' => h (hr h'), hi ∘ up, hstack ∘ up, hdt ∘ up, hst ∘ up, hfb ∘ up, hmem ∘ up, hrep ∘ up,
    hdraws ∘ up, hrest⟩

/-- All an instruction can do to the state: within its frame, or its stack fault. -/
theorem exec_frame_or_fault {i : Instr} {s t : State} (h : exec i s = .next t) :
    s.Frame (writtenParts i) (writtenRegs i) t ∨ StackFault s i t := by
  cases i with
  | ret =>
    rcases s.sp_pos_or_empty with hsp | hsp
    · rw [exec_ret_of_pos hsp] at h; cases h
      exact .inl (s.stack_frame _ s.stack _)
    · rw [exec_ret_of_empty hsp] at h; cases h
      exact .inr (.underflow hsp)
  | call nnn =>
    rcases s.sp_lt_or_full with hsp | hsp
    · rw [exec_call_of_lt nnn hsp] at h; cases h
      exact .inl (s.stack_frame ..)
    · rw [exec_call_of_full nnn hsp] at h; cases h
      exact .inr (.overflow nnn hsp)
  | sys nnn => cases h; exact .inl s.advance_frame
  | jp | jpV0 => cases h; exact .inl (s.setPc_frame _)
  | seImm | sneImm | seReg | sneReg | skp | sknp => cases h; exact .inl (s.skipIf_frame _)
  | ldImm | addImm | ldReg | orReg | andReg | xorReg | ldVxDt => cases h; exact .inl (s.setReg_frame ..)
  | addReg | sub | shr | subn | shl => cases h; exact .inl (s.setReg_setReg_frame ..)
  | rnd => cases h; exact .inl (rndWith_frame ..)
  | cls => cases h; exact .inl (s.setFb_frame _)
  | drw => cases h; exact .inl (s.setFb_setReg_frame ..)
  | ldI | addI | ldF => cases h; exact .inl (s.setI_frame _)
  | ldB => cases h; exact .inl (s.mem_frame _)
  | ldIndStore x => cases h; exact .inl (s.storeBlock_bumpIndex_frame _ x)
  | ldIndLoad x => cases h; exact .inl (s.loadBlock_bumpIndex_frame x)
  | ldDtVx => cases h; exact .inl (s.setDt_frame _)
  | ldVxK x =>
    rcases hk : s.firstPressed with _ | k
    · rw [exec_ldVxK_of_released x hk] at h; cases h
      exact .inl ((s.setPc_frame _).mono (List.nil_subset _) (List.nil_subset _))
    · rw [exec_ldVxK_of_pressed x hk] at h; cases h
      exact .inl (s.setReg_frame x k)
  | ldStVx x =>
    rcases hm : s.params.fx18 with _ | _
    · rw [exec_ldStVx_of_setSoundTimer x hm] at h; cases h
      exact .inl ((s.setSt_frame _).mono (by simp [writtenParts]) (List.nil_subset _))
    · rw [exec_ldStVx_of_decodeError x hm] at h; cases h
      exact .inl ((s.unknownWord_frame _).mono (by simp [writtenParts]) (List.nil_subset _))

end Sys2Proof.Machine
end

section
/-! The statements of family 10_state.md, from the frame of every instruction, the canonical form of memory, and the
independence from past reports. -/

namespace Sys2Proof.Machine

/-! ### The step's frame: the latch, the parameters and the fault fields -/

/-- All a step can do to the state: within some frame, or the stack fault of the instruction at PC. -/
theorem step_frame_or_fault {s t : State} (h : step s = .next t) :
    (∃ ws rs, s.Frame ws rs t) ∨ ∃ i, StackFault s i t := by
  obtain ⟨-, ⟨i, -, hexec⟩ | ⟨-, rfl⟩⟩ := step_next h
  · exact (exec_frame_or_fault hexec).imp (fun hf => ⟨_, _, hf⟩) fun hf => ⟨i, hf⟩
  · exact .inl ⟨_, _, s.unknownWord_frame _⟩

/-- Settles O17: no frame and no fault names the latch or the parameters. -/
theorem stepKeepsLatchAndParameters : Obligations.StepKeepsLatchAndParameters := by
  intro s t h
  rcases step_frame_or_fault h with ⟨ws, rs, -, -, -, -, -, -, -, -, -, hkeys, hparams, -⟩ | ⟨i, hfault⟩
  · exact ⟨hkeys, hparams⟩
  · obtain ⟨c, w, rfl⟩ := hfault.eq_raiseFault
    exact ⟨rfl, rfl⟩

/-! ### The invariant -/

/-- Every instruction keeps memory in canonical form: only BCD and the block store write it. -/
theorem exec_keeps_wf {i : Instr} {s t : State} (h : exec i s = .next t) (hs : Memory.wf s.params.font s.mem) :
    Memory.wf t.params.font t.mem := by
  cases i with
  | ldB x => cases h; exact State.memWrite_wf _ _ (State.memWrite_wf _ _ (State.memWrite_wf _ _ hs))
  | ldIndStore x => cases h; exact State.storeBlock_wf (s := s.advance) _ hs
  | ldIndLoad x => cases h; rw [State.loadBlock_eq]; exact hs
  | ret =>
    rcases s.sp_pos_or_empty with hsp | hsp
    · rw [exec_ret_of_pos hsp] at h; cases h; exact hs
    · rw [exec_ret_of_empty hsp] at h; cases h; exact hs
  | call nnn =>
    rcases s.sp_lt_or_full with hsp | hsp
    · rw [exec_call_of_lt nnn hsp] at h; cases h; exact hs
    · rw [exec_call_of_full nnn hsp] at h; cases h; exact hs
  | seImm | sneImm | seReg | sneReg | skp | sknp => cases h; rw [State.skipIf_params, State.skipIf_mem]; exact hs
  | ldVxK x =>
    rcases hk : s.firstPressed with _ | k
    · rw [exec_ldVxK_of_released x hk] at h; cases h; exact hs
    · rw [exec_ldVxK_of_pressed x hk] at h; cases h; exact hs
  | ldStVx x =>
    rcases hm : s.params.fx18 with _ | _
    · rw [exec_ldStVx_of_setSoundTimer x hm] at h; cases h; exact hs
    · rw [exec_ldStVx_of_decodeError x hm] at h; cases h; exact hs
  | _ => cases h; exact hs

theorem step_keeps_wf {s t : State} (h : step s = .next t) (hs : Memory.wf s.params.font s.mem) :
    Memory.wf t.params.font t.mem := by
  obtain ⟨-, ⟨i, -, hexec⟩ | ⟨-, rfl⟩⟩ := step_next h
  · exact exec_keeps_wf hexec hs
  · exact hs

/-- A step within a frame takes no fault, so the fault fields still hold their reset values. -/
theorem State.Frame.inv {ws : List Part} {rs : List Reg} {s t : State} (hf : s.Frame ws rs t) (hrun : s.Running)
    (hs : s.Inv) (hwf : Memory.wf t.params.font t.mem) : t.Inv := by
  obtain ⟨-, -, -, -, -, -, -, -, -, -, -, hfault, hpc, hword⟩ := hf
  obtain ⟨-, hreset, -, -⟩ := hs
  have hnone : t.fault = .none := hfault.trans hrun
  exact ⟨hwf, fun _ => by rw [hpc, hword]; exact hreset hrun, by simp [hnone], by simp [hnone]⟩

/-- A stack fault records the depth, PC and word of its cause (R223 to R225). -/
theorem StackFault.inv {i : Instr} {s t : State} (hf : StackFault s i t) (hwf : Memory.wf t.params.font t.mem) : t.Inv := by
  cases hf with
  | overflow nnn hfull => exact ⟨hwf, nofun, fun _ => ⟨hfull, rfl, fieldClass_nnn 0x2#4 nnn⟩, nofun⟩
  | underflow hempty => exact ⟨hwf, nofun, nofun, fun _ => ⟨hempty, rfl, rfl⟩⟩

/-- Settles O14: a step within a frame leaves the fault fields, and a stack fault sets them to what the invariant asks. -/
theorem stepKeepsInvariant : Obligations.StepKeepsInvariant := by
  intro s t hs h
  have hwf := step_keeps_wf h hs.1
  rcases step_frame_or_fault h with ⟨ws, rs, hf⟩ | ⟨i, hf⟩
  · exact hf.inv (step_next h).1 hs hwf
  · exact hf.inv hwf

/-- Settles O15: memory lists nothing, and no fault is recorded. -/
theorem resetMeetsInvariant : Obligations.ResetMeetsInvariant :=
  ⟨State.reset_wf, fun _ => ⟨rfl, rfl⟩, nofun, nofun⟩

/-- Settles O56: a cell that memory does not list reads as its FONT byte or zero; every other value is a field of the state. -/
theorem resetStateHoldsTableValues : Obligations.ResetStateHoldsTableValues := by
  refine ⟨fun a ha => ?_, fun r => Vector.getElem_replicate _, rfl, rfl, fun k => Vector.getElem_replicate _, rfl, rfl, rfl,
    rfl, rfl, rfl⟩
  rw [← Nat.mod_eq_of_lt ha]
  exact congrArg (Memory.read _ []) (Nat.mod_mod ..)

/-! ### Pixels, VF, the call stack and I: what no frame names is as before -/

/-- Settles O20: the frame of an instruction other than CLS and DRW does not name the pixels. -/
theorem onlyClearAndDrawChangePixels : Obligations.OnlyClearAndDrawChangePixels := by
  intro i s t h hcls hdrw
  rcases exec_frame_or_fault h with ⟨-, -, -, -, -, hpixels, -⟩ | hfault
  · refine hpixels fun hmem => ?_
    rcases pixels_mem_writtenParts hmem with rfl | ⟨x, y, n, rfl⟩
    · exact hcls rfl
    · exact hdrw x y n rfl
  · obtain ⟨c, w, rfl⟩ := hfault.eq_raiseFault
    exact s.raiseFault_pixel c w

/-- Settles O21: a register that changes is one the frame names. -/
theorem vfChangesOnlyAsFlagOrDestination : Obligations.VfChangesOnlyAsFlagOrDestination := by
  intro i s t h hne
  rcases exec_frame_or_fault h with ⟨hregs, -⟩ | hfault
  · exact vf_mem_writtenRegs (not_imp_comm.1 (hregs vf) hne)
  · obtain ⟨c, w, rfl⟩ := hfault.eq_raiseFault
    exact absurd (s.raiseFault_reg c w vf) hne

/-- RET moves the depth alone: the entry it leaves behind keeps its value (R130). -/
theorem exec_ret_stack {s t : State} (h : exec .ret s = .next t) : t.stack = s.stack := by
  rcases s.sp_pos_or_empty with hsp | hsp
  · rw [exec_ret_of_pos hsp] at h; cases h; rfl
  · rw [exec_ret_of_empty hsp] at h; cases h; rfl

theorem exec_stack_of_ne {i : Instr} {s t : State} (h : exec i s = .next t) (hcall : ∀ nnn, i ≠ .call nnn)
    (hret : i ≠ .ret) : t.stack = s.stack ∧ t.sp = s.sp := by
  rcases exec_frame_or_fault h with ⟨-, -, hstack, -⟩ | hfault
  · refine hstack fun hmem => ?_
    rcases stack_mem_writtenParts hmem with ⟨nnn, rfl⟩ | rfl
    · exact hcall nnn rfl
    · exact hret rfl
  · obtain ⟨c, w, rfl⟩ := hfault.eq_raiseFault
    exact ⟨s.raiseFault_stack c w, s.raiseFault_sp c w⟩

/-- Settles O22: outside CALL and RET no frame names the stack, and RET changes no entry. -/
theorem onlyCallAndReturnTouchStack : Obligations.OnlyCallAndReturnTouchStack := by
  intro i s t h
  refine ⟨fun hcall => ?_, fun hcall hret => (exec_stack_of_ne h hcall hret).2⟩
  by_cases hret : i = .ret
  · subst hret; exact exec_ret_stack h
  · exact (exec_stack_of_ne h hcall hret).1

/-- Settles O23: an I that changes is one the frame names. -/
theorem onlyIndexInstructionsWriteI : Obligations.OnlyIndexInstructionsWriteI := by
  intro i s t h hne
  rcases exec_frame_or_fault h with ⟨-, hindex, -⟩ | hfault
  · exact index_mem_writtenParts (not_imp_comm.1 hindex hne)
  · obtain ⟨c, w, rfl⟩ := hfault.eq_raiseFault
    exact absurd (s.raiseFault_i c w) hne

/-! ### Reports -/

/-- s with another past output. -/
def State.withReports (s : State) (past : List Report) : State := { s with reports := past }

theorem State.storeBlock_withReports (s : State) (past : List Report) (n : Nat) :
    (s.withReports past).storeBlock n = (s.storeBlock n).withReports past := by
  induction n with
  | zero => rfl
  | succ n ih => rw [State.storeBlock_succ, State.storeBlock_succ, ih]; rfl

theorem State.loadBlock_withReports (s : State) (past : List Report) (n : Nat) :
    (s.withReports past).loadBlock n = (s.loadBlock n).withReports past := by
  induction n with
  | zero => rfl
  | succ n ih => rw [State.loadBlock_succ, State.loadBlock_succ, ih]; rfl

theorem State.skipIf_withReports (s : State) (past : List Report) (c : Bool) :
    (s.withReports past).skipIf c = (s.skipIf c).withReports past := by
  cases c <;> rfl

/-- From s the step function f goes to t, appends at most one report, and depends on nothing in the output: with any other past
output it makes the same next state and appends the same (R36). -/
def AppendsAtMostOne (f : State → Host.Outcome State Fault Refusal) (s t : State) : Prop :=
  ∃ new : List Report, new.length ≤ 1 ∧ ∀ past, f (s.withReports past) = .next (t.withReports (past ++ new))

section
variable {f : State → Host.Outcome State Fault Refusal} {s t : State}

theorem AppendsAtMostOne.of_none (h : ∀ past, f (s.withReports past) = .next (t.withReports past)) : AppendsAtMostOne f s t :=
  ⟨[], Nat.zero_le 1, fun past => by rw [List.append_nil]; exact h past⟩

theorem AppendsAtMostOne.of_one (r : Report) (h : ∀ past, f (s.withReports past) = .next (t.withReports (past ++ [r]))) :
    AppendsAtMostOne f s t :=
  ⟨[r], Nat.le_refl 1, h⟩

end

/-- Fx18 under decode_error and the stack faults append one report, every other instruction none. -/
theorem exec_appendsAtMostOne {i : Instr} {s t : State} (h : exec i s = .next t) : AppendsAtMostOne (exec i) s t := by
  cases i with
  | ret =>
    rcases s.sp_pos_or_empty with hsp | hsp
    · rw [exec_ret_of_pos hsp] at h; cases h
      exact .of_none fun past => exec_ret_of_pos (s := s.withReports past) hsp
    · rw [exec_ret_of_empty hsp] at h; cases h
      exact .of_one (.fault .stackUnderflow s.pc (encode .ret)) fun past =>
        exec_ret_of_empty (s := s.withReports past) hsp
  | call nnn =>
    rcases s.sp_lt_or_full with hsp | hsp
    · rw [exec_call_of_lt nnn hsp] at h; cases h
      exact .of_none fun past => exec_call_of_lt nnn (s := s.withReports past) hsp
    · rw [exec_call_of_full nnn hsp] at h; cases h
      exact .of_one (.fault .stackOverflow s.pc (encode (.call nnn))) fun past =>
        exec_call_of_full nnn (s := s.withReports past) hsp
  | ldStVx x =>
    rcases hm : s.params.fx18 with _ | _
    · rw [exec_ldStVx_of_setSoundTimer x hm] at h; cases h
      exact .of_none fun past => exec_ldStVx_of_setSoundTimer x (s := s.withReports past) hm
    · rw [exec_ldStVx_of_decodeError x hm] at h; cases h
      exact .of_one (.decodeError s.pc (encode (.ldStVx x))) fun past =>
        exec_ldStVx_of_decodeError x (s := s.withReports past) hm
  | ldVxK x =>
    rcases hk : s.firstPressed with _ | k
    · rw [exec_ldVxK_of_released x hk] at h; cases h
      exact .of_none fun past => exec_ldVxK_of_released x (s := s.withReports past) hk
    · rw [exec_ldVxK_of_pressed x hk] at h; cases h
      exact .of_none fun past => exec_ldVxK_of_pressed x (s := s.withReports past) hk
  | seImm | sneImm | seReg | sneReg | skp | sknp =>
    cases h; exact .of_none fun past => congrArg _ (s.advance.skipIf_withReports past _)
  | ldIndStore x =>
    cases h
    exact .of_none fun past => congrArg (fun u : State => Host.Outcome.next (u.bumpIndex x))
      (s.advance.storeBlock_withReports past _)
  | ldIndLoad x =>
    cases h
    exact .of_none fun past => congrArg (fun u : State => Host.Outcome.next (u.bumpIndex x))
      (s.advance.loadBlock_withReports past _)
  | _ => cases h; exact .of_none fun past => rfl

theorem step_eq_exec {s : State} {i : Instr} (hrun : s.Running) (hd : decode s.params.fx18 s.fetchWord = some i) :
    step s = exec i s := by
  simp [step, hrun, hd]

theorem step_eq_unknownWord {s : State} (hrun : s.Running) (hd : decode s.params.fx18 s.fetchWord = none) :
    step s = .next (s.unknownWord s.fetchWord) := by
  simp [step, hrun, hd]

/-- The output does not change which word is fetched and what it decodes to, so the step appends as its instruction does. -/
theorem step_appendsAtMostOne {s t : State} (h : step s = .next t) : AppendsAtMostOne step s t := by
  obtain ⟨hrun, ⟨i, hd, hexec⟩ | ⟨hd, rfl⟩⟩ := step_next h
  · obtain ⟨new, hlen, hblind⟩ := exec_appendsAtMostOne hexec
    exact ⟨new, hlen, fun past => (step_eq_exec (s := s.withReports past) hrun hd).trans (hblind past)⟩
  · exact .of_one (.decodeError s.pc s.fetchWord) fun past =>
      step_eq_unknownWord (s := s.withReports past) hrun hd

/-- Settles O18: with the past output it had, the step is the one made, so its reports are the old ones and the new. -/
theorem reportsAreAppendOnlyOutput : Obligations.ReportsAreAppendOnlyOutput := by
  intro s t h
  obtain ⟨new, hlen, hblind⟩ := step_appendsAtMostOne h
  have hsame : Host.Outcome.next t = .next (t.withReports (s.reports ++ new)) := h.symm.trans (hblind s.reports)
  exact ⟨new, hlen, congrArg State.reports (Host.Outcome.next.inj hsame), hblind⟩

end Sys2Proof.Machine
end

section
/-! The statements of family 20_memory.md: the masking of addresses, the fetch, and which cells an instruction writes. -/

namespace Sys2Proof.Machine

/-! ### Cells and the fetch -/

theorem State.memWrite_memRead_of_eq (s : State) {addr a : Nat} (b : Byte) (h : a % memSize = addr % memSize) :
    (s.memWrite addr b).memRead a = b :=
  (s.memWrite_memRead addr a b).trans (if_pos h)

theorem State.memWrite_memRead_of_ne (s : State) {addr a : Nat} (b : Byte) (h : a % memSize ≠ addr % memSize) :
    (s.memWrite addr b).memRead a = s.memRead a :=
  (s.memWrite_memRead addr a b).trans (if_neg h)

/-- Settles O48: the two branches of a read after a write. -/
theorem readReturnsLastWrite : Obligations.ReadReturnsLastWrite :=
  fun s _ _ b => ⟨s.memWrite_memRead_of_eq b, s.memWrite_memRead_of_ne b⟩

/-- Addresses that agree in their low 12 bits name one cell (R10). -/
theorem State.memRead_congr (s : State) {a b : Nat} (h : a % memSize = b % memSize) : s.memRead a = s.memRead b :=
  congrArg (Memory.read s.params.font s.mem) h

theorem State.fetchWord_toNat (s : State) :
    s.fetchWord.toNat = 256 * (s.memRead s.pc.toNat).toNat + (s.memRead (s.pc.toNat + 1)).toNat :=
  wordOfBytes_toNat ..

/-- The cells at PC and PC + 1 differ, wherever PC is. -/
theorem mod_memSize_ne_succ_mod (a : Nat) : a % memSize ≠ (a + 1) % memSize := by
  rw [memSize]
  omega

/-- Settles O8: at the top of memory PC names cell 4095 and PC + 1 names cell 0. -/
theorem fetchIsBigEndian : Obligations.FetchIsBigEndian := by
  intro s
  refine ⟨s.fetchWord_toNat, fun htop => ?_⟩
  have hfirst : s.memRead s.pc.toNat = s.memRead 4095 := s.memRead_congr htop
  have hsecond : s.memRead (s.pc.toNat + 1) = s.memRead 0 := s.memRead_congr (by rw [memSize]; omega)
  rw [s.fetchWord_toNat, hfirst, hsecond]

/-- Placing a word stores its two bytes, first byte first (R61). -/
theorem State.withFetchWord_word (s : State) (w : Word) :
    s.withFetchWord 16 w.toNat =
      (s.memWrite s.pc.toNat (w.extractLsb' 8 8)).memWrite (s.pc.toNat + 1) (w.extractLsb' 0 8) := by
  have hword : BitVec.ofNat 16 (w.toNat % 2 ^ 16) = w := by rw [Nat.mod_eq_of_lt w.isLt, BitVec.ofNat_toNat, BitVec.setWidth_eq]
  rw [State.withFetchWord, hword]

/-- Settles O49: the second store leaves the first byte, in another cell, alone. -/
theorem storedWordIsFetched : Obligations.StoredWordIsFetched := by
  intro s w
  rw [s.withFetchWord_word, State.fetchWord, State.memWrite_pc, State.memWrite_pc,
    State.memWrite_memRead_of_ne _ _ (mod_memSize_ne_succ_mod _), State.memWrite_memRead_of_eq _ _ rfl,
    State.memWrite_memRead_of_eq _ _ rfl, wordOfBytes_bytes]

/-! ### The cells an instruction writes -/

theorem memory_mem_writtenParts {i : Instr} (h : .memory ∈ writtenParts i) : ∃ x, i = .ldB x ∨ i = .ldIndStore x := by
  cases i <;> simp_all [writtenParts]

/-- BCD writes only the three cells from I (R183). -/
theorem exec_ldB_memRead_of_out {x : Reg} {s t : State} {a : Nat} (h : exec (.ldB x) s = .next t)
    (hout : ∀ k, k < 3 → a % 4096 ≠ s.indexAddr k % 4096) : t.memRead a = s.memRead a := by
  cases h
  rw [State.memWrite_memRead_of_ne _ _ (hout 2 (by decide)), State.memWrite_memRead_of_ne _ _ (hout 1 (by decide)),
    State.memWrite_memRead_of_ne _ _ (hout 0 (by decide)), State.advance_memRead]

/-- The block store writes only the x + 1 cells from I (R184). -/
theorem exec_ldIndStore_memRead_of_out {x : Reg} {s t : State} {a : Nat} (h : exec (.ldIndStore x) s = .next t)
    (hout : ∀ k, k < x.toNat + 1 → a % 4096 ≠ s.indexAddr k % 4096) : t.memRead a = s.memRead a := by
  cases h
  rw [State.bumpIndex, State.setI_memRead, s.advance.storeBlock_memRead_of_out _ a hout, State.advance_memRead]

/-- Settles O19: a frame that names memory is that of BCD or the block store, and a fault writes none. -/
theorem onlyBcdAndBlockStoreWriteMemory : Obligations.OnlyBcdAndBlockStoreWriteMemory := by
  intro i s t h stored a hout
  rcases exec_frame_or_fault h with ⟨-, -, -, -, -, -, hmemory, -⟩ | hfault
  · by_cases hmem : .memory ∈ writtenParts i
    · rcases memory_mem_writtenParts hmem with ⟨x, rfl | rfl⟩
      · exact exec_ldB_memRead_of_out h hout
      · exact exec_ldIndStore_memRead_of_out h hout
    · exact hmemory hmem a
  · obtain ⟨c, w, rfl⟩ := hfault.eq_raiseFault
    exact s.raiseFault_memRead c w a

end Sys2Proof.Machine
end

section
/-! The statements of family 30_encoding.md: the encoder and the decoder undo each other, and which words no instruction has. -/

namespace Sys2Proof

/-! ### Fields -/

/-- The byte nn of a word is its nibbles y and n (R81). -/
theorem word_xyn_eq_xnn (c x y n : Nibble) : (c ++ x ++ y ++ n : Word) = c ++ x ++ (y ++ n : Byte) :=
  BitVec.append_assoc

/-- The address nnn of a word is its nibble x and its byte nn (R81). -/
theorem word_xnn_eq_nnn (c x : Nibble) (nn : Byte) : (c ++ x ++ nn : Word) = c ++ (x ++ nn : Addr) :=
  BitVec.append_assoc

theorem fieldNN_xyn (c x y n : Nibble) : fieldNN (c ++ x ++ y ++ n) = y ++ n := by
  rw [word_xyn_eq_xnn, fieldNN_xnn]

theorem fieldNNN_xyn (c x y n : Nibble) : fieldNNN (c ++ x ++ y ++ n) = x ++ y ++ n := by
  rw [word_xyn_eq_xnn, word_xnn_eq_nnn, fieldNNN_nnn]
  exact (BitVec.append_assoc (x₁ := x) (x₂ := y) (x₃ := n)).symm

theorem fieldClass_toNat (w : Word) : (fieldClass w).toNat = w.toNat / 4096 := by
  rw [fieldClass, BitVec.extractLsb'_toNat, Nat.shiftRight_eq_div_pow]
  omega

theorem fieldN_toNat (w : Word) : (fieldN w).toNat = w.toNat % 16 := BitVec.extractLsb'_toNat ..

theorem fieldNN_toNat (w : Word) : (fieldNN w).toNat = w.toNat % 256 := BitVec.extractLsb'_toNat ..

/-- Settles O1, field by field. -/
theorem fieldsOfWord : Obligations.FieldsOfWord :=
  fun c x y n => ⟨fieldClass_xyn c x y n, fieldX_xyn c x y n, fieldY_xyn c x y n, fieldN_xyn c x y n,
    fieldNN_xyn c x y n, fieldNNN_xyn c x y n⟩

/-! ### Decode after encode -/

/-- Class 0 is decoded by its address (R84). -/
theorem decode_class0 (m : Fx18Mode) (nnn : Addr) : decode m (0x0#4 ++ nnn) = some (decodeClass0 nnn) := by
  simp [decode, fieldClass_nnn, fieldNNN_nnn]

/-- Class 8 is decoded by n (R83). -/
theorem decode_class8 (m : Fx18Mode) (x y : Reg) (n : Nibble) : decode m (0x8#4 ++ x ++ y ++ n) = decodeClass8 x y n := by
  simp [decode, fieldClass_xyn, fieldX_xyn, fieldY_xyn, fieldN_xyn]

/-- Class E is decoded by nn (R83). -/
theorem decode_classE (m : Fx18Mode) (x : Reg) (nn : Byte) : decode m (0xE#4 ++ x ++ nn) = decodeClassE x nn := by
  simp [decode, fieldClass_xnn, fieldX_xnn, fieldNN_xnn]

/-- Class F is decoded by nn (R83). -/
theorem decode_classF (m : Fx18Mode) (x : Reg) (nn : Byte) : decode m (0xF#4 ++ x ++ nn) = decodeClassF m x nn := by
  simp [decode, fieldClass_xnn, fieldX_xnn, fieldNN_xnn]

/-- The fields of an instruction's word are its operands, in the form (nnn, xnn or xyn) of its class. -/
theorem decode_encode {m : Fx18Mode} {i : Instr} (h : wellFormed m i = true) : decode m (encode i) = some i := by
  cases i with
  | cls | ret => rfl
  | sys nnn =>
    obtain ⟨hcls, hret⟩ : nnn ≠ 0x0E0#12 ∧ nnn ≠ 0x0EE#12 := by simpa [wellFormed] using h
    rw [encode, decode_class0, decodeClass0, if_neg hcls, if_neg hret]
  | jp | call | ldI | jpV0 => simp [encode, decode, fieldClass_nnn, fieldNNN_nnn]
  | seImm | sneImm | ldImm | addImm | rnd => simp [encode, decode, fieldClass_xnn, fieldX_xnn, fieldNN_xnn]
  | seReg | sneReg | drw => simp [encode, decode, fieldClass_xyn, fieldX_xyn, fieldY_xyn, fieldN_xyn]
  | ldReg x y | orReg x y | andReg x y | xorReg x y | addReg x y | sub x y | shr x y | subn x y | shl x y =>
    exact decode_class8 m x y _
  | skp x | sknp x => exact decode_classE m x _
  | ldStVx x =>
    have hm : m = .setSoundTimer := by simpa [wellFormed] using h
    subst hm
    exact decode_classF _ x _
  | ldVxDt x | ldVxK x | ldDtVx x | addI x | ldF x | ldB x | ldIndStore x | ldIndLoad x => exact decode_classF m x _

/-- Settles O3, by the form of each instruction's word. -/
theorem decodeOfEncode : Obligations.DecodeOfEncode := fun _ _ => decode_encode

/-- Settles O2: the words are the encodings of the six instructions. -/
theorem sampleWordsDecode : Obligations.SampleWordsDecode := fun _ =>
  ⟨decode_encode (i := .cls) rfl, decode_encode (i := .call 0x300#12) rfl, decode_encode (i := .sub 1#4 2#4) rfl,
    decode_encode (i := .ldB 2#4) rfl, decode_encode (i := .skp 5#4) rfl, decode_encode (i := .drw 1#4 2#4 5#4) rfl⟩

/-- Settles O6: class 0 by its own decoder; a word of a full class is the encoding of its one instruction. -/
theorem classZeroAndFullClassesDecode : Obligations.ClassZeroAndFullClassesDecode := fun m =>
  ⟨decode_class0 m,
    fun nnn => ⟨decode_encode (i := .jp nnn) rfl, decode_encode (i := .call nnn) rfl, decode_encode (i := .ldI nnn) rfl,
      decode_encode (i := .jpV0 nnn) rfl⟩,
    fun x nn => ⟨decode_encode (i := .seImm x nn) rfl, decode_encode (i := .sneImm x nn) rfl,
      decode_encode (i := .ldImm x nn) rfl, decode_encode (i := .addImm x nn) rfl, decode_encode (i := .rnd x nn) rfl⟩,
    fun x y n => decode_encode (i := .drw x y n) rfl⟩

/-! ### Encode after decode -/

/-- The words 00E0 and 00EE, which SYS has not, are those of CLS and RET (R84). -/
theorem encode_decodeClass0 (m : Fx18Mode) (nnn : Addr) :
    wellFormed m (decodeClass0 nnn) = true ∧ encode (decodeClass0 nnn) = 0x0#4 ++ nnn := by
  rw [decodeClass0]
  split_ifs with hcls hret
  · subst hcls; exact ⟨rfl, rfl⟩
  · subst hret; exact ⟨rfl, rfl⟩
  · exact ⟨by simp [wellFormed, hcls, hret], rfl⟩

theorem encode_of_decodeClass8 (m : Fx18Mode) {x y : Reg} {n : Nibble} {i : Instr} (h : decodeClass8 x y n = some i) :
    wellFormed m i = true ∧ encode i = 0x8#4 ++ x ++ y ++ n := by
  unfold decodeClass8 at h
  split at h <;> cases h <;> exact ⟨rfl, rfl⟩

theorem encode_of_decodeClassE (m : Fx18Mode) {x : Reg} {nn : Byte} {i : Instr} (h : decodeClassE x nn = some i) :
    wellFormed m i = true ∧ encode i = 0xE#4 ++ x ++ nn := by
  unfold decodeClassE at h
  split at h <;> cases h <;> exact ⟨rfl, rfl⟩

theorem encode_of_decodeClassF {m : Fx18Mode} {x : Reg} {nn : Byte} {i : Instr} (h : decodeClassF m x nn = some i) :
    wellFormed m i = true ∧ encode i = 0xF#4 ++ x ++ nn := by
  unfold decodeClassF at h
  split at h
  case h_4 =>
    obtain ⟨hm, rfl⟩ : m = .setSoundTimer ∧ Instr.ldStVx x = i := by simpa using h
    exact ⟨by simp [wellFormed, hm], rfl⟩
  all_goals cases h <;> exact ⟨rfl, rfl⟩

/-- A known word is rebuilt from the fields its instruction carries, in the form (nnn, xnn or xyn) of its class. The cases are
those of `decode`: class c is case c + 1, and no class is case 17. -/
theorem encode_of_decode {m : Fx18Mode} {w : Word} {i : Instr} (h : decode m w = some i) :
    wellFormed m i = true ∧ encode i = w := by
  have hnnn := word_of_nnn w
  have hxnn := word_of_xnn w
  have hxyn := word_of_xyn w
  unfold decode at h
  generalize fieldClass w = c at h hnnn hxnn hxyn
  split at h
  case h_1 => cases h; rw [← hnnn, fieldNNN_nnn]; exact encode_decodeClass0 m _
  case h_2 | h_3 | h_11 | h_12 => cases h; exact ⟨rfl, hnnn⟩
  case h_4 | h_5 | h_7 | h_8 | h_13 => cases h; exact ⟨rfl, hxnn⟩
  case h_14 => cases h; exact ⟨rfl, hxyn⟩
  case h_6 | h_10 =>
    split_ifs at h with hn
    cases h
    rw [hn] at hxyn
    exact ⟨rfl, hxyn⟩
  case h_9 => exact hxyn ▸ encode_of_decodeClass8 m h
  case h_15 => exact hxnn ▸ encode_of_decodeClassE m h
  case h_16 => exact hxnn ▸ encode_of_decodeClassF h
  case h_17 => cases h

/-- Settles O4, by the class of the word. -/
theorem encodeOfDecode : Obligations.EncodeOfDecode := fun _ _ _ => encode_of_decode

/-! ### Unknown words -/

/-- The last case is every n that is no operation (R85). -/
theorem decodeClass8_eq_none_iff (x y : Reg) (n : Nibble) :
    decodeClass8 x y n = none ↔ n.toNat ∈ [0x8, 0x9, 0xA, 0xB, 0xC, 0xD, 0xF] := by
  unfold decodeClass8
  split
  case h_10 =>
    simp only [imp_false, BitVec.toNat_eq, List.mem_cons, true_iff] at *
    bv_omega
  all_goals simp

/-- The last case is every nn that is no operation (R85). -/
theorem decodeClassE_eq_none_iff (x : Reg) (nn : Byte) : decodeClassE x nn = none ↔ nn.toNat ∉ [0x9E, 0xA1] := by
  unfold decodeClassE
  split
  case h_3 => simp_all [BitVec.toNat_eq]
  all_goals simp

/-- The fourth case is Fx18, which the mode decides (D7), and the last every nn that is no operation (R85). -/
theorem decodeClassF_eq_none_iff (m : Fx18Mode) (x : Reg) (nn : Byte) : decodeClassF m x nn = none ↔
    nn.toNat ∉ [0x07, 0x0A, 0x15, 0x18, 0x1E, 0x29, 0x33, 0x55, 0x65] ∨ (nn.toNat = 0x18 ∧ m = .decodeError) := by
  unfold decodeClassF
  split
  case h_4 => cases m <;> simp
  case h_10 => simp_all [BitVec.toNat_eq]
  all_goals simp

/-- A word is unknown only by its n in the classes 5, 8 and 9, and by its nn in the classes E and F (R84, R85). Case 17
of `decode`, past class F, is empty. -/
theorem decode_eq_none_iff (m : Fx18Mode) (w : Word) : decode m w = none ↔
    (fieldClass w = 0x5#4 ∧ fieldN w ≠ 0#4) ∨ (fieldClass w = 0x9#4 ∧ fieldN w ≠ 0#4) ∨
    (fieldClass w = 0x8#4 ∧ decodeClass8 (fieldX w) (fieldY w) (fieldN w) = none) ∨
    (fieldClass w = 0xE#4 ∧ decodeClassE (fieldX w) (fieldNN w) = none) ∨
    (fieldClass w = 0xF#4 ∧ decodeClassF m (fieldX w) (fieldNN w) = none) := by
  unfold decode
  generalize fieldClass w = c
  split
  case h_17 =>
    simp only [imp_false] at *
    bv_omega
  all_goals simp

/-- Settles O5: the fields of the word as numbers. -/
theorem unknownWordsAreExactlyTheListed : Obligations.UnknownWordsAreExactlyTheListed := by
  intro m w
  have h := decode_eq_none_iff m w
  simp only [decodeClass8_eq_none_iff, decodeClassE_eq_none_iff, decodeClassF_eq_none_iff, ne_eq, BitVec.toNat_eq,
    fieldClass_toNat, fieldN_toNat, fieldNN_toNat, and_or_left] at h
  exact h

end Sys2Proof
end

section
/-! The statements of family 40_step.md: which outcome a step has, the timers' tick, and where PC goes. -/

namespace Sys2Proof.Machine

/-! ### The three branches of a step -/

/-- Settles O7: a word that decodes is the word of a well-formed instruction. -/
theorem stepRunsDecodedInstruction : Obligations.StepRunsDecodedInstruction :=
  fun _ _ hrun hd => ⟨(encode_of_decode hd).1, step_eq_exec hrun hd⟩

/-- Settles O9: the state an unknown word leaves has the frame of the common part and one report. -/
theorem unknownWordIsReported : Obligations.UnknownWordIsReported :=
  fun s hrun hd => ⟨s.unknownWord s.fetchWord, step_eq_unknownWord hrun hd, .of_pc rfl, rfl, s.unknownWord_frame _⟩

theorem step_eq_halted {s : State} (h : ¬s.Running) : step s = .fault (.halted s.fault) := by
  rcases step_cases s with ⟨-, hstep⟩ | ⟨hrun, -⟩ | ⟨hrun, -⟩
  · exact hstep
  · exact absurd hrun h
  · exact absurd hrun h

/-- Settles O10: the step's branch on FAULT comes before the fetch. -/
theorem haltedCoreTakesNoStep : Obligations.HaltedCoreTakesNoStep := fun _ => step_eq_halted

/-! ### Normal or fault -/

/-- No instruction refuses or stops: a stack fault too is a next state (R224). -/
theorem exec_total (i : Instr) (s : State) : ∃ t, exec i s = .next t := by
  cases i with
  | ret =>
    rcases s.sp_pos_or_empty with hsp | hsp
    · exact ⟨_, exec_ret_of_pos hsp⟩
    · exact ⟨_, exec_ret_of_empty hsp⟩
  | call nnn =>
    rcases s.sp_lt_or_full with hsp | hsp
    · exact ⟨_, exec_call_of_lt nnn hsp⟩
    · exact ⟨_, exec_call_of_full nnn hsp⟩
  | _ => exact ⟨_, rfl⟩

theorem State.Frame.running {ws : List Part} {rs : List Reg} {s t : State} (h : s.Frame ws rs t) (hrun : s.Running) :
    t.Running := by
  obtain ⟨-, -, -, -, -, -, -, -, -, -, -, hfault, -⟩ := h
  exact hfault.trans hrun

theorem StackFault.not_running {i : Instr} {s t : State} (h : StackFault s i t) : ¬t.Running := by
  cases h <;> exact nofun

theorem exec_frame_of_running {i : Instr} {s t : State} (h : exec i s = .next t) (ht : t.Running) :
    s.Frame (writtenParts i) (writtenRegs i) t :=
  (exec_frame_or_fault h).resolve_right fun hfault => hfault.not_running ht

theorem reports_mem_writtenParts {i : Instr} (h : .reports ∈ writtenParts i) : ∃ x, i = .ldStVx x := by
  cases i <;> simp_all [writtenParts]

/-- An instruction with a word of its own reports only a stack fault: Fx18 reports under decode_error, where it is no
instruction (R222). -/
theorem exec_reports_of_wellFormed {i : Instr} {s t : State} (hwf : wellFormed s.params.fx18 i = true)
    (h : exec i s = .next t) (ht : t.Running) : t.reports = s.reports := by
  by_cases hmem : .reports ∈ writtenParts i
  · obtain ⟨x, rfl⟩ := reports_mem_writtenParts hmem
    rw [exec_ldStVx_of_setSoundTimer x (by simpa [wellFormed] using hwf)] at h
    cases h
    rfl
  · obtain ⟨-, -, -, -, -, -, -, hreports, -⟩ := exec_frame_of_running h ht
    exact hreports hmem

/-- Settles O11: a halted core has no next state, an unknown word one report, and a known word its frame or its stack fault,
whose word is the one fetched. -/
theorem stepOutcomesAreTheFour : Obligations.StepOutcomesAreTheFour := by
  intro s
  rcases step_cases s with ⟨hhalted, hstep⟩ | ⟨hrun, i, hd, hstep⟩ | ⟨hrun, hd, hstep⟩
  · exact .inl ⟨hhalted, fun t => by rw [hstep]; exact nofun⟩
  · obtain ⟨t, ht⟩ := exec_total i s
    obtain ⟨hwf, hword⟩ := encode_of_decode hd
    refine .inr ⟨hrun, t, hstep.trans ht, ?_⟩
    rcases exec_frame_or_fault ht with hframe | hfault
    · have hrun' := hframe.running hrun
      exact .inl ⟨hrun', exec_reports_of_wellFormed hwf ht hrun', i, hd⟩
    · rw [hd, ← hword]
      cases hfault with
      | overflow nnn hfull => exact .inr (.inr ⟨.stackOverflow, nofun, by simp [hfull], by simp, rfl⟩)
      | underflow hempty => exact .inr (.inr ⟨.stackUnderflow, nofun, by simp, by simp [hempty], rfl⟩)
  · exact .inr ⟨hrun, _, hstep, .inr (.inl ⟨hrun, rfl, hd⟩)⟩

/-! ### Timers -/

theorem delay_mem_writtenParts {i : Instr} (h : .delay ∈ writtenParts i) : ∃ x, i = .ldDtVx x := by
  cases i <;> simp_all [writtenParts]

theorem sound_mem_writtenParts {i : Instr} (h : .sound ∈ writtenParts i) : ∃ x, i = .ldStVx x := by
  cases i <;> simp_all [writtenParts]

/-- Settles O12: a timer the frame does not name has ticked once, and only Fx15 names DT, only Fx18 ST. -/
theorem timersTickOncePerStep : Obligations.TimersTickOncePerStep := by
  intro s t h ht
  obtain ⟨-, ⟨i, hd, hexec⟩ | ⟨-, rfl⟩⟩ := step_next h
  · obtain ⟨-, -, -, hdelay, hsound, -⟩ := exec_frame_of_running hexec ht
    refine ⟨fun hne => hdelay fun hmem => ?_, fun hne => hsound fun hmem => ?_⟩
    · obtain ⟨x, rfl⟩ := delay_mem_writtenParts hmem
      exact hne x hd
    · obtain ⟨x, rfl⟩ := sound_mem_writtenParts hmem
      exact hne x hd
  · exact ⟨fun _ => tick_toNat s.dt, fun _ => tick_toNat s.st⟩

/-! ### PC -/

@[simp] theorem State.storeBlock_pc (s : State) (n : Nat) : (s.storeBlock n).pc = s.pc := by rw [State.storeBlock_eq]
@[simp] theorem State.loadBlock_pc (s : State) (n : Nat) : (s.loadBlock n).pc = s.pc := by rw [State.loadBlock_eq]
@[simp] theorem State.bumpIndex_pc (s : State) (x : Reg) : (s.bumpIndex x).pc = s.pc := rfl

/-- An address keeps its value as a word (R82). -/
@[simp] theorem addrOf_toNat (nnn : Addr) : (addrOf nnn).toNat = nnn.toNat :=
  BitVec.toNat_setWidth_of_le (by decide)

/-- nnn + V0 does not reach 65536 (R138). -/
theorem addrOf_add_toNat (nnn : Addr) (b : Byte) : (addrOf nnn + b.setWidth 16).toNat = nnn.toNat + b.toNat := by
  rw [BitVec.toNat_add, addrOf_toNat, BitVec.toNat_setWidth_of_le (by decide)]
  omega

theorem State.isPressed_ofNat (s : State) (k : Fin 16) : s.isPressed (BitVec.ofNat 8 k) = s.keys[k] := by
  have hk : (BitVec.ofNat 8 k).toNat = k := by rw [BitVec.toNat_ofNat]; omega
  simp [State.isPressed, hk]

/-- The key wait finds no key exactly when none is held (R201). -/
theorem State.firstPressed_eq_none_iff (s : State) : s.firstPressed = none ↔ ∀ k : Fin 16, s.keys[k] = false := by
  simp only [State.firstPressed, List.find?_eq_none, List.forall_mem_map, List.mem_range, Bool.not_eq_true]
  exact ⟨fun h k => s.isPressed_ofNat k ▸ h k k.isLt, fun h k hk => (s.isPressed_ofNat ⟨k, hk⟩).trans (h _)⟩

theorem State.skipIf_afterSkip_of_iff (s : State) {c : Bool} {p : Prop} (h : c = true ↔ p) :
    s.PcAfterSkip (s.advance.skipIf c) p :=
  propext h ▸ s.skipIf_afterSkip c

/-- CALL goes to its target unless it faults (R133). -/
theorem exec_call_pc {nnn : Addr} {s t : State} (h : exec (.call nnn) s = .next t) (ht : t.Running) :
    t.pc.toNat = nnn.toNat := by
  rcases s.sp_lt_or_full with hsp | hsp
  · rw [exec_call_of_lt nnn hsp] at h; cases h; exact addrOf_toNat nnn
  · rw [exec_call_of_full nnn hsp] at h; cases h; exact absurd ht (StackFault.overflow nnn hsp).not_running

/-- RET goes to the entry it pops unless it faults (R130). -/
theorem exec_ret_pc {s t : State} (h : exec .ret s = .next t) (ht : t.Running) :
    some t.pc = s.stack[s.sp.val - 1]? := by
  rcases s.sp_pos_or_empty with hsp | hsp
  · rw [exec_ret_of_pos hsp] at h; cases h; exact (Vector.getElem?_eq_getElem _).symm
  · rw [exec_ret_of_empty hsp] at h; cases h; exact absurd ht (StackFault.underflow hsp).not_running

/-- The key wait stays at its own word while no key is held and goes on when one is (R205). -/
theorem exec_ldVxK_pc {x : Reg} {s t : State} (h : exec (.ldVxK x) s = .next t) :
    ((∀ k : Fin 16, s.keys[k] = false) → t.pc = s.pc) ∧ ((∃ k : Fin 16, s.keys[k] = true) → s.PcBaseline t) := by
  rcases hk : s.firstPressed with _ | k
  · rw [exec_ldVxK_of_released x hk] at h; cases h
    have hnone := s.firstPressed_eq_none_iff.1 hk
    exact ⟨fun _ => BitVec.add_sub_cancel s.pc 2, fun ⟨k, hheld⟩ => absurd hheld (by simp [hnone k])⟩
  · rw [exec_ldVxK_of_pressed x hk] at h; cases h
    exact ⟨fun hnone => absurd (s.firstPressed_eq_none_iff.2 hnone) (by simp [hk]), fun _ => .of_pc rfl⟩

/-- Fx18 goes on to the next word under both modes (R207). -/
theorem exec_ldStVx_pc {x : Reg} {s t : State} (h : exec (.ldStVx x) s = .next t) : t.pc = s.pc + 2 := by
  rcases hm : s.params.fx18 with _ | _
  · rw [exec_ldStVx_of_setSoundTimer x hm] at h; cases h; rfl
  · rw [exec_ldStVx_of_decodeError x hm] at h; cases h; rfl

/-- Settles O13, by the instruction. -/
theorem pcAfterEveryInstruction : Obligations.PcAfterEveryInstruction := by
  intro i s t _ h ht
  cases i with
  | jp nnn => cases h; exact addrOf_toNat nnn
  | call nnn => exact exec_call_pc h ht
  | jpV0 nnn => cases h; exact addrOf_add_toNat nnn _
  | ret => exact exec_ret_pc h ht
  | seImm | seReg => cases h; exact s.skipIf_afterSkip_of_iff beq_iff_eq
  | sneImm | sneReg => cases h; exact s.skipIf_afterSkip_of_iff bne_iff_ne
  | skp => cases h; exact s.skipIf_afterSkip _
  | sknp => cases h; exact s.skipIf_afterSkip_of_iff (Bool.not_eq_true' _).to_iff
  | ldVxK x => exact exec_ldVxK_pc h
  | ldStVx x => exact .of_pc (exec_ldStVx_pc h)
  | ldIndStore | ldIndLoad => cases h; exact .of_pc (by simp)
  | _ => cases h; exact .of_pc rfl

end Sys2Proof.Machine
end

section
/-! The statements of family 41_display.md: CLS, where a sprite pixel lands, and what DRW does to each pixel and to VF. -/

namespace Sys2Proof.Machine

/-! ### CLS -/

/-- Settles O24: after the common part CLS writes the framebuffer alone, with the blank one. -/
theorem clsClearsEveryPixel : Obligations.ClsClearsEveryPixel :=
  fun _ s => ⟨decode_encode (i := .cls) rfl, _, rfl, .of_pc rfl, Framebuffer.blank_pixel, s.setFb_frame _⟩

/-! ### The place of a sprite pixel (R116) -/

/-- A place inside the grid is taken as it is: the reduction of its two coordinates changes neither. -/
theorem place_clip_of_lt {x0 y0 : Byte} {c r : Nat} (hx : x0.toNat % 64 + c < 64) (hy : y0.toNat % 32 + r < 32) :
    place .clip x0 y0 c r = some (⟨x0.toNat % 64 + c, hx⟩, ⟨y0.toNat % 32 + r, hy⟩) :=
  (if_pos ⟨hx, hy⟩).trans <| congrArg some <|
    Prod.ext (Fin.ext (Nat.mod_eq_of_lt hx)) (Fin.ext (Nat.mod_eq_of_lt hy))

/-- Settles O25: wrap reduces both coordinates, clip asks whether the place is in the grid. -/
theorem placeWrapsOrClips : Obligations.PlaceWrapsOrClips := by
  intro x0 y0 c r
  refine ⟨⟨_, _, rfl, rfl, rfl⟩, ?_⟩
  split_ifs with hin
  · exact ⟨_, _, place_clip_of_lt hin.1 hin.2, rfl, rfl⟩
  · exact if_neg hin

/-! ### DRW -/

/-- The sprite's collision (R115): some pixel it covers is set. -/
def State.SpriteHits (s : State) (x y : Reg) (n : Nibble) : Prop :=
  ∃ px py, s.SpriteCovers x y n px py ∧ s.pixel px py = true

/-- The pixels drawn on are the covered ones. -/
theorem State.any_place_eq_true_iff (s : State) (x y : Reg) (n : Nibble) (px : Fin 64) (py : Fin 32) :
    ((spriteBits (s.spriteRows n)).any fun p => place s.params.edge (s.reg x) (s.reg y) p.1 p.2 == some (px, py)) = true ↔
      s.SpriteCovers x y n px py := by
  simp only [State.spriteCovers_iff, List.any_eq_true, beq_iff_eq]

/-- The collision value of R111's loops is whether the sprite hits. -/
theorem State.drawSprite_hit_iff (s : State) (x y : Reg) (n : Nibble) :
    (drawSprite s.params.edge (s.reg x) (s.reg y) (s.spriteRows n) s.fb).2 = true ↔ s.SpriteHits x y n := by
  rw [(drawSprite_spec _ _ _ _ (s.spriteRows_length n) _).2]
  simp only [State.SpriteHits, State.spriteCovers_iff]
  constructor
  · rintro ⟨p, hp, px, py, hplace, hset⟩
    exact ⟨px, py, ⟨p, hp, hplace⟩, hset⟩
  · rintro ⟨px, py, ⟨p, hp, hplace⟩, hset⟩
    exact ⟨p, hp, px, py, hplace, hset⟩

section
variable {x y : Reg} {n : Nibble} {s t : State} (h : exec (.drw x y n) s = .next t)
include h

/-- DRW names the pixels and VF alone (R118). -/
theorem exec_drw_frame : s.Frame [.pixels] [vf] t := by
  cases h
  exact s.setFb_setReg_frame ..

/-- DRW reads both coordinates and the rows before any write (R111, D3). -/
theorem exec_drw_pixel (px : Fin 64) (py : Fin 32) :
    t.pixel px py = (s.pixel px py ^^
      (spriteBits (s.spriteRows n)).any fun p => place s.params.edge (s.reg x) (s.reg y) p.1 p.2 == some (px, py)) := by
  cases h
  exact (drawSprite_spec _ _ _ _ (s.spriteRows_length n) _).1 px py

theorem exec_drw_pixel_of_covers {px : Fin 64} {py : Fin 32} (hc : s.SpriteCovers x y n px py) :
    t.pixel px py = !s.pixel px py := by
  rw [exec_drw_pixel h, (s.any_place_eq_true_iff x y n px py).2 hc, Bool.xor_true]

theorem exec_drw_pixel_of_not_covers {px : Fin 64} {py : Fin 32} (hc : ¬s.SpriteCovers x y n px py) :
    t.pixel px py = s.pixel px py := by
  rw [exec_drw_pixel h, Bool.eq_false_iff.2 (mt (s.any_place_eq_true_iff x y n px py).1 hc), Bool.xor_false]

/-- DRW writes VF last, so VF holds the collision value whatever x and y are (R117). -/
theorem exec_drw_vf :
    t.reg vf = bool01 (drawSprite s.params.edge (s.reg x) (s.reg y) (s.spriteRows n) s.fb).2 := by
  cases h
  exact State.setReg_reg_self ..

theorem exec_drw_vf_of_hits (hh : s.SpriteHits x y n) : t.reg vf = 1 := by
  rw [exec_drw_vf h, (s.drawSprite_hit_iff x y n).2 hh]
  rfl

theorem exec_drw_vf_of_not_hits (hh : ¬s.SpriteHits x y n) : t.reg vf = 0 := by
  rw [exec_drw_vf h, Bool.eq_false_iff.2 (mt (s.drawSprite_hit_iff x y n).1 hh)]
  rfl

end

/-- Settles O26: which pixels DRW inverts, when VF is 1, and the frame, each by its own lemma. -/
theorem drwXorsSprite : Obligations.DrwXorsSprite :=
  fun _ x y n _ => ⟨decode_encode (i := .drw x y n) rfl, _, rfl, .of_pc rfl,
    fun _ _ => ⟨exec_drw_pixel_of_covers rfl, exec_drw_pixel_of_not_covers rfl⟩,
    exec_drw_vf_of_hits rfl, exec_drw_vf_of_not_hits rfl, exec_drw_frame rfl⟩

/-! ### Drawing twice (R118) -/

/-- Which pixels a sprite covers depends on its two coordinates, I, memory and the parameters alone. -/
theorem State.Frame.spriteCovers_iff {ws : List Part} {rs : List Reg} {s t : State} (hf : s.Frame ws rs t) {x y : Reg}
    (hx : x ∉ rs) (hy : y ∉ rs) (hi : .index ∉ ws) (hm : .memory ∉ ws) (n : Nibble) (px : Fin 64) (py : Fin 32) :
    t.SpriteCovers x y n px py ↔ s.SpriteCovers x y n px py := by
  obtain ⟨hreg, hindex, -, -, -, -, hmem, -, -, -, hparams, -⟩ := hf
  simp only [State.SpriteCovers, hreg x hx, hreg y hy, hindex hi, hmem hm, hparams]

/-- Settles O27: the second draw covers the pixels of the first, so it inverts each of them back, and hits one that the
first has set. -/
theorem drawingTwiceCancels : Obligations.DrawingTwiceCancels := by
  intro x y n s hx hy
  obtain ⟨t, ht⟩ := exec_total (.drw x y n) s
  obtain ⟨u, hu⟩ := exec_total (.drw x y n) t
  have hcov : ∀ px py, t.SpriteCovers x y n px py ↔ s.SpriteCovers x y n px py :=
    (exec_drw_frame ht).spriteCovers_iff (mt List.mem_singleton.1 hx) (mt List.mem_singleton.1 hy) (by decide) (by decide) n
  refine ⟨t, u, ht, hu, fun px py => ?_, fun hclear ⟨px, py, hc⟩ => ⟨?_, ?_⟩⟩
  · by_cases hc : s.SpriteCovers x y n px py
    · rw [exec_drw_pixel_of_covers hu ((hcov px py).2 hc), exec_drw_pixel_of_covers ht hc, Bool.not_not]
    · rw [exec_drw_pixel_of_not_covers hu (mt (hcov px py).1 hc), exec_drw_pixel_of_not_covers ht hc]
  · refine exec_drw_vf_of_not_hits ht ?_
    rintro ⟨qx, qy, hq, hset⟩
    exact Bool.eq_false_iff.1 (hclear qx qy hq) hset
  · have hset : t.pixel px py = true := by rw [exec_drw_pixel_of_covers ht hc, hclear px py hc, Bool.not_false]
    exact exec_drw_vf_of_hits hu ⟨px, py, (hcov px py).2 hc, hset⟩

end Sys2Proof.Machine
end

section
/-! The statements of family 42_flow.md: SYS and the jumps, CALL and RET with the two stack faults, and the skips. -/

namespace Sys2Proof.Machine

/-! ### SYS and the jumps -/

/-- Settles O28: SYS leaves the common part's state, and each jump sets the PC of that state. -/
theorem sysJumpAndIndexedJump : Obligations.SysJumpAndIndexedJump := by
  intro m nnn s
  refine ⟨fun hcls hret => ?_, decode_encode (i := .jp nnn) rfl, decode_encode (i := .jpV0 nnn) rfl, ?_, ?_, ?_⟩
  · exact decode_encode (i := .sys nnn) (by simp [wellFormed, hcls, hret])
  · exact ⟨_, rfl, s.advance_baseline, s.advance_frame⟩
  · exact ⟨_, rfl, addrOf_toNat nnn, s.setPc_frame _⟩
  · exact ⟨_, rfl, addrOf_add_toNat nnn (s.reg 0), s.setPc_frame _⟩

/-! ### CALL and RET -/

/-- Settles O29, by whether the stack has room. -/
theorem callPushesOrOverflows : Obligations.CallPushesOrOverflows := by
  intro m nnn s
  refine ⟨decode_encode (i := .call nnn) rfl, fun hroom => ?_, fun hfull => exec_call_of_full nnn hfull⟩
  refine ⟨_, exec_call_of_lt nnn hroom, addrOf_toNat nnn, rfl, ?_, fun k hk => ?_, s.stack_frame ..⟩
  · rw [Vector.getElem_set_self, toNat_add_two]
  · exact Vector.getElem_set_ne hroom _ hk.symm

/-- Settles O30, by whether the stack has an entry. -/
theorem retPopsOrUnderflows : Obligations.RetPopsOrUnderflows :=
  fun _ s => ⟨decode_encode (i := .ret) rfl,
    fun hpos => ⟨_, exec_ret_of_pos hpos, rfl, (Vector.getElem?_eq_getElem _).symm, rfl, s.stack_frame _ s.stack _⟩,
    exec_ret_of_empty⟩

/-- Settles O32: RET pops the entry that CALL has pushed, and neither writes a register. -/
theorem callThenReturnRestoresPc : Obligations.CallThenReturnRestoresPc := by
  intro nnn s hroom
  refine ⟨_, _, exec_call_of_lt nnn hroom, exec_ret_of_pos (Nat.succ_pos _), .of_pc ?_, rfl, fun _ => rfl⟩
  exact Vector.getElem_set_self _

/-! ### Skips -/

/-- Settles O33: the condition skipped on is that of the immediate. -/
theorem skipsOnImmediate : Obligations.SkipsOnImmediate :=
  fun _ x nn s => ⟨decode_encode (i := .seImm x nn) rfl, decode_encode (i := .sneImm x nn) rfl,
    ⟨_, rfl, s.skipIf_afterSkip_of_iff beq_iff_eq, s.skipIf_frame _⟩,
    ⟨_, rfl, s.skipIf_afterSkip_of_iff bne_iff_ne, s.skipIf_frame _⟩⟩

/-- The classes 5 and 9 have no instruction but that of n = 0 (R85, D11). -/
theorem decode_eq_none_of_n_ne_zero (m : Fx18Mode) {c : Nibble} (hc : c = 0x5#4 ∨ c = 0x9#4) (x y : Reg) {n : Nibble}
    (hn : n ≠ 0) : decode m (c ++ x ++ y ++ n) = none := by
  rw [decode_eq_none_iff, fieldClass_xyn, fieldN_xyn]
  rcases hc with h5 | h9
  · exact .inl ⟨h5, hn⟩
  · exact .inr (.inl ⟨h9, hn⟩)

/-- Settles O34: the condition skipped on is that of the two registers, and a nonzero n leaves the word unknown. -/
theorem skipsOnRegisters : Obligations.SkipsOnRegisters :=
  fun m x y s => ⟨decode_encode (i := .seReg x y) rfl, decode_encode (i := .sneReg x y) rfl,
    fun _ hn => ⟨decode_eq_none_of_n_ne_zero m (.inl rfl) x y hn, decode_eq_none_of_n_ne_zero m (.inr rfl) x y hn⟩,
    ⟨_, rfl, s.skipIf_afterSkip_of_iff beq_iff_eq, s.skipIf_frame _⟩,
    ⟨_, rfl, s.skipIf_afterSkip_of_iff bne_iff_ne, s.skipIf_frame _⟩⟩

end Sys2Proof.Machine
end

section
/-! The statements of family 43_alu.md: the immediates, register moves and logic, the instructions with a flag, and RND. -/

namespace Sys2Proof.Machine

/-! ### Flags and arithmetic as numbers (R162, R163) -/

theorem bool01_decide_toNat (p : Prop) [Decidable p] : (bool01 (decide p)).toNat = if p then 1 else 0 := by
  rw [bool01_toNat, Bool.toNat, Bool.cond_decide]

@[simp] theorem carryFlag_toNat (a b : Byte) : (carryFlag a b).toNat = if a.toNat + b.toNat > 255 then 1 else 0 :=
  bool01_decide_toNat _

@[simp] theorem greaterFlag_toNat (a b : Byte) : (greaterFlag a b).toNat = if a.toNat > b.toNat then 1 else 0 :=
  bool01_decide_toNat _

@[simp] theorem lowBitFlag_toNat (a : Byte) : (lowBitFlag a).toNat = a.toNat % 2 := by
  rw [lowBitFlag, BitVec.toNat_and]
  exact Nat.and_one_is_mod _

/-- The mask 0x80 keeps the highest bit alone, which is set from 128 on. -/
theorem and_0x80_bne_zero (a : Byte) : (a &&& 0x80 != 0) = decide (128 ≤ a.toNat) := by
  have hmask : a &&& 0x80 = if a.getLsbD 7 then BitVec.twoPow 8 7 else 0 := BitVec.and_twoPow a 7
  have hmsb : a.getLsbD 7 = decide (128 ≤ a.toNat) := BitVec.msb_eq_decide a
  rw [hmask, hmsb]
  by_cases h : 128 ≤ a.toNat <;> simp [h]

@[simp] theorem highBitFlag_toNat (a : Byte) : (highBitFlag a).toNat = if 128 ≤ a.toNat then 1 else 0 := by
  rw [highBitFlag, and_0x80_bne_zero, bool01_decide_toNat]

@[simp] theorem add8_toNat (a b : Byte) : (add8 a b).toNat = (a.toNat + b.toNat) % 256 := BitVec.toNat_add a b

@[simp] theorem sub8_toNat (a b : Byte) : (sub8 a b).toNat = (256 + a.toNat - b.toNat) % 256 := by
  rw [sub8, BitVec.toNat_sub, Nat.sub_add_comm b.isLt.le]

@[simp] theorem shr8_toNat (a : Byte) : (shr8 a).toNat = a.toNat / 2 := by
  rw [shr8, BitVec.toNat_ushiftRight, Nat.shiftRight_one]

@[simp] theorem shl8_toNat (a : Byte) : (shl8 a).toNat = a.toNat * 2 % 256 := by
  rw [shl8, BitVec.toNat_shiftLeft, Nat.shiftLeft_eq, Nat.pow_one]

/-! ### Immediates, moves and logic -/

/-- Settles O35: each writes Vx alone. -/
theorem loadAndAddImmediate : Obligations.LoadAndAddImmediate := by
  intro m x nn s
  refine ⟨decode_encode (i := .ldImm x nn) rfl, decode_encode (i := .addImm x nn) rfl, ?_, ?_⟩
  · exact ⟨_, rfl, .of_pc rfl, State.setReg_reg_self .., s.setReg_frame ..⟩
  · refine ⟨_, rfl, .of_pc rfl, ?_, s.setReg_frame ..⟩
    rw [State.setReg_reg_self, add8_toNat, State.advance_reg]

/-- Settles O36: each writes Vx alone, and the logic is bit by bit. -/
theorem registerMoveAndLogic : Obligations.RegisterMoveAndLogic := by
  intro m x y s
  refine ⟨decode_encode (i := .ldReg x y) rfl, decode_encode (i := .orReg x y) rfl, decode_encode (i := .andReg x y) rfl,
    decode_encode (i := .xorReg x y) rfl, ?_, ?_, ?_, ?_⟩
  · exact ⟨_, rfl, .of_pc rfl, State.setReg_reg_self .., s.setReg_frame ..⟩
  · refine ⟨_, rfl, .of_pc rfl, s.setReg_frame .., fun k => ?_⟩
    rw [State.setReg_reg_self, BitVec.getLsbD_or, State.advance_reg, State.advance_reg]
  · refine ⟨_, rfl, .of_pc rfl, s.setReg_frame .., fun k => ?_⟩
    rw [State.setReg_reg_self, BitVec.getLsbD_and, State.advance_reg, State.advance_reg]
  · refine ⟨_, rfl, .of_pc rfl, s.setReg_frame .., fun k => ?_⟩
    rw [State.setReg_reg_self, BitVec.getLsbD_xor, State.advance_reg, State.advance_reg]

/-! ### A flag, then the destination (D3) -/

/-- The flag stays in VF when the destination is another register. -/
theorem State.setReg_vf_setReg_reg_vf (s : State) {x : Reg} (f b : Byte) (hx : x ≠ vf) :
    ((s.setReg vf f).setReg x b).reg vf = f := by
  rw [State.setReg_reg_of_ne _ _ hx.symm, State.setReg_reg_self]

/-- Settles O37: ADD reads both operands before it writes, so the sum is the same when x or y is 0xF. -/
theorem addSetsCarry : Obligations.AddSetsCarry := by
  intro m x y s
  refine ⟨decode_encode (i := .addReg x y) rfl, _, rfl, .of_pc rfl, s.setReg_setReg_frame .., ?_, fun hx => ?_⟩
  · rw [State.setReg_reg_self, add8_toNat, State.advance_reg, State.advance_reg]
  · rw [State.setReg_vf_setReg_reg_vf _ _ _ hx, carryFlag_toNat, State.advance_reg, State.advance_reg]

/-- What SUB (p = x) and SUBN (q = x) leave: the flag Vp > Vq in VF, then Vp - Vq in Vx, read after the flag is written. -/
def State.diffWithFlag (s : State) (x p q : Reg) : State :=
  let s1 := s.advance.setReg vf (greaterFlag (s.reg p) (s.reg q))
  s1.setReg x (sub8 (s1.reg p) (s1.reg q))

theorem exec_sub (x y : Reg) (s : State) : exec (.sub x y) s = .next (s.diffWithFlag x x y) := rfl

theorem exec_subn (x y : Reg) (s : State) : exec (.subn x y) s = .next (s.diffWithFlag x y x) := rfl

section
variable (s : State) {x p q : Reg}

theorem State.diffWithFlag_baseline : s.PcBaseline (s.diffWithFlag x p q) := .of_pc rfl

theorem State.diffWithFlag_frame : s.Frame [] [x, vf] (s.diffWithFlag x p q) := s.setReg_setReg_frame ..

theorem State.diffWithFlag_reg_vf (hx : x ≠ vf) :
    ((s.diffWithFlag x p q).reg vf).toNat = if (s.reg p).toNat > (s.reg q).toNat then 1 else 0 := by
  rw [State.diffWithFlag, State.setReg_vf_setReg_reg_vf _ _ _ hx, greaterFlag_toNat]

theorem State.diffWithFlag_reg_of_ne (hp : p ≠ vf) (hq : q ≠ vf) :
    ((s.diffWithFlag x p q).reg x).toNat = (256 + (s.reg p).toNat - (s.reg q).toNat) % 256 := by
  rw [State.diffWithFlag, State.setReg_reg_self, sub8_toNat, State.setReg_reg_of_ne _ _ hp, State.setReg_reg_of_ne _ _ hq,
    State.advance_reg, State.advance_reg]

theorem State.diffWithFlag_reg_of_vf_left (hq : q ≠ vf) : ((s.diffWithFlag x vf q).reg x).toNat =
    (256 + (if (s.reg vf).toNat > (s.reg q).toNat then 1 else 0) - (s.reg q).toNat) % 256 := by
  rw [State.diffWithFlag, State.setReg_reg_self, sub8_toNat, State.setReg_reg_self, State.setReg_reg_of_ne _ _ hq,
    greaterFlag_toNat, State.advance_reg]

theorem State.diffWithFlag_reg_of_vf_right (hp : p ≠ vf) : ((s.diffWithFlag x p vf).reg x).toNat =
    (256 + (s.reg p).toNat - if (s.reg p).toNat > (s.reg vf).toNat then 1 else 0) % 256 := by
  rw [State.diffWithFlag, State.setReg_reg_self, sub8_toNat, State.setReg_reg_self, State.setReg_reg_of_ne _ _ hp,
    greaterFlag_toNat, State.advance_reg]

/-- A register less itself is zero, whatever the flag was. -/
theorem State.diffWithFlag_reg_self : ((s.diffWithFlag x p p).reg x).toNat = 0 := by
  rw [State.diffWithFlag, State.setReg_reg_self, sub8, BitVec.sub_self]
  rfl

end

/-- Settles O38, by which of x and y is VF. -/
theorem subSetsStrictFlag : Obligations.SubSetsStrictFlag := by
  intro m x y s f
  refine ⟨decode_encode (i := .sub x y) rfl, _, exec_sub x y s, s.diffWithFlag_baseline, s.diffWithFlag_frame,
    s.diffWithFlag_reg_vf, s.diffWithFlag_reg_of_ne, ?_, ?_, ?_⟩
  · rintro rfl hy
    exact s.diffWithFlag_reg_of_vf_left hy
  · rintro hx rfl
    exact s.diffWithFlag_reg_of_vf_right hx
  · rintro rfl rfl
    exact s.diffWithFlag_reg_self

/-- Settles O39, by which of x and y is VF: SUB's difference with the operands exchanged. -/
theorem subnSetsStrictFlag : Obligations.SubnSetsStrictFlag := by
  intro m x y s f
  refine ⟨decode_encode (i := .subn x y) rfl, _, exec_subn x y s, s.diffWithFlag_baseline, s.diffWithFlag_frame,
    s.diffWithFlag_reg_vf, fun hx hy => s.diffWithFlag_reg_of_ne hy hx, ?_, ?_, ?_⟩
  · rintro rfl hy
    exact s.diffWithFlag_reg_of_vf_right hy
  · rintro hx rfl
    exact s.diffWithFlag_reg_of_vf_left hx
  · rintro rfl rfl
    exact s.diffWithFlag_reg_self

/-! ### Shifts -/

/-- SHR of VF shifts the flag itself, which has no bit above the lowest. -/
theorem shr8_lowBitFlag (a : Byte) : shr8 (lowBitFlag a) = 0 := by
  apply BitVec.eq_of_toNat_eq
  rw [shr8_toNat, lowBitFlag_toNat]
  exact Nat.div_eq_of_lt (Nat.mod_lt _ Nat.two_pos)

/-- SHL of VF doubles the flag itself. -/
theorem shl8_highBitFlag_toNat (a : Byte) : (shl8 (highBitFlag a)).toNat = if 128 ≤ a.toNat then 2 else 0 := by
  rw [shl8_toNat, highBitFlag_toNat]
  split <;> rfl

/-- Settles O40: with another destination the shift reads Vx as it was; with x = 0xF it reads the flag. -/
theorem shiftsSetShiftedOutBit : Obligations.ShiftsSetShiftedOutBit := by
  intro m x y s
  refine ⟨decode_encode (i := .shr x y) rfl, decode_encode (i := .shl x y) rfl, ?_, ?_⟩
  · refine ⟨_, rfl, .of_pc rfl, s.setReg_setReg_frame .., fun hx => ⟨?_, ?_⟩, ?_⟩
    · rw [State.setReg_reg_self, shr8_toNat, State.setReg_reg_of_ne _ _ hx, State.advance_reg]
    · rw [State.setReg_vf_setReg_reg_vf _ _ _ hx, lowBitFlag_toNat, State.advance_reg]
    · rintro rfl
      rw [State.setReg_reg_self, State.setReg_reg_self, shr8_lowBitFlag]
  · refine ⟨_, rfl, .of_pc rfl, s.setReg_setReg_frame .., fun hx => ⟨?_, ?_⟩, ?_⟩
    · rw [State.setReg_reg_self, shl8_toNat, State.setReg_reg_of_ne _ _ hx, State.advance_reg]
    · rw [State.setReg_vf_setReg_reg_vf _ _ _ hx, highBitFlag_toNat, State.advance_reg]
    · rintro rfl
      rw [State.setReg_reg_self, State.setReg_reg_self, shl8_highBitFlag_toNat, State.advance_reg]

/-! ### The random byte -/

theorem rndWith_reg_self (r : Byte) (x : Reg) (nn : Byte) (s : State) : (rndWith r x nn s).reg x = r &&& nn :=
  s.advance.setReg_reg_self x (r &&& nn)

/-- Settles O41: the mask keeps no bit that nn lacks, whatever byte is drawn. -/
theorem rndMasksOneFreeByte : Obligations.RndMasksOneFreeByte := by
  intro m x nn s
  refine ⟨decode_encode (i := .rnd x nn) rfl, rfl, fun r => ?_⟩
  refine ⟨.of_pc rfl, rndWith_reg_self r x nn s, fun k hk => ?_, rfl, rndWith_frame r x nn s⟩
  rw [rndWith_reg_self, BitVec.getLsbD_and, Bool.and_eq_true] at hk
  exact hk.2

end Sys2Proof.Machine
end

section
/-! The statements of family 44_index_memory.md: what is put in I, the three BCD cells, and the block store and load. -/

namespace Sys2Proof.Machine

/-! ### I -/

/-- Five times a byte does not reach 65536 (R182). -/
theorem glyphAddr_toNat (v : Byte) : (glyphAddr v).toNat = v.toNat * 5 := by
  rw [glyphAddr, BitVec.toNat_ofNat]
  omega

/-- Settles O42: each sets I alone after the common part. -/
theorem loadIndexAndGlyphAddress : Obligations.LoadIndexAndGlyphAddress :=
  fun _ nnn x s => ⟨decode_encode (i := .ldI nnn) rfl, decode_encode (i := .ldF x) rfl,
    ⟨_, rfl, .of_pc rfl, addrOf_toNat nnn, s.setI_frame _⟩,
    ⟨_, rfl, .of_pc rfl, glyphAddr_toNat (s.reg x), s.setI_frame _⟩⟩

/-- I plus a zero-extended register wraps at 65536 (R181, D1). -/
theorem add_setWidth_toNat (w : Word) (b : Byte) : (w + b.setWidth 16).toNat = (w.toNat + b.toNat) % 65536 := by
  rw [BitVec.toNat_add, BitVec.toNat_setWidth_of_le (by decide)]

/-- Settles O43: I is set alone, to a sum of words. -/
theorem addToIndexWraps : Obligations.AddToIndexWraps :=
  fun _ x s => ⟨decode_encode (i := .addI x) rfl, _, rfl, .of_pc rfl, add_setWidth_toNat s.i (s.reg x), s.setI_frame _⟩

/-! ### BCD -/

@[simp] theorem bcdHundreds_toNat (v : Byte) : (bcdHundreds v).toNat = v.toNat / 100 := by
  rw [bcdHundreds, BitVec.toNat_ofNat]
  omega

@[simp] theorem bcdTens_toNat (v : Byte) : (bcdTens v).toNat = v.toNat / 10 % 10 := by
  rw [bcdTens, BitVec.toNat_ofNat]
  omega

@[simp] theorem bcdUnits_toNat (v : Byte) : (bcdUnits v).toNat = v.toNat % 10 := by
  rw [bcdUnits, BitVec.toNat_ofNat]
  omega

/-- Different accesses closer than the memory is long reach different cells, also across its top (R10). -/
theorem State.indexAddr_mod_ne_of_lt (s : State) {j k : Nat} (hjk : j < k) (hk : k < memSize) :
    s.indexAddr j % memSize ≠ s.indexAddr k % memSize := by
  simp only [State.indexAddr, memSize] at hk ⊢
  omega

section
variable {x : Reg} {s t : State} (h : exec (.ldB x) s = .next t)
include h

/-- The two later writes of BCD leave the cell at I alone (R183). -/
theorem exec_ldB_memRead_hundreds : t.memRead (s.indexAddr 0) = bcdHundreds (s.reg x) := by
  cases h
  rw [State.memWrite_memRead_of_ne _ _ (s.indexAddr_mod_ne_of_lt (by decide) (by decide)),
    State.memWrite_memRead_of_ne _ _ (s.indexAddr_mod_ne_of_lt (by decide) (by decide)),
    State.memWrite_memRead_of_eq _ _ rfl, State.advance_reg]

/-- The last write of BCD leaves the cell at I + 1 alone (R183). -/
theorem exec_ldB_memRead_tens : t.memRead (s.indexAddr 1) = bcdTens (s.reg x) := by
  cases h
  rw [State.memWrite_memRead_of_ne _ _ (s.indexAddr_mod_ne_of_lt (by decide) (by decide)),
    State.memWrite_memRead_of_eq _ _ rfl, State.advance_reg]

theorem exec_ldB_memRead_units : t.memRead (s.indexAddr 2) = bcdUnits (s.reg x) := by
  cases h
  rw [State.memWrite_memRead_of_eq _ _ rfl, State.advance_reg]

end

/-- Settles O44: each of the three cells by its own lemma; the digits of a byte make up the byte. -/
theorem bcdStoresThreeDigits : Obligations.BcdStoresThreeDigits := by
  intro m x s
  obtain ⟨t, ht⟩ := exec_total (.ldB x) s
  refine ⟨decode_encode (i := .ldB x) rfl, t, ht, ?_⟩
  rw [exec_ldB_memRead_hundreds ht, exec_ldB_memRead_tens ht, exec_ldB_memRead_units ht, bcdHundreds_toNat, bcdTens_toNat,
    bcdUnits_toNat]
  refine ⟨?_, rfl, rfl, rfl, by omega, fun a => exec_ldB_memRead_of_out ht, ?_⟩
  · cases ht
    exact .of_pc rfl
  · cases ht
    exact s.mem_frame _

/-! ### Block store and block load -/

/-- The last statement of both moves I past the block, modulo 65536 (R184, R185, D1). -/
theorem State.bumpIndex_i_toNat (s : State) (x : Reg) :
    (s.bumpIndex x).i.toNat = (s.i.toNat + x.toNat + 1) % 65536 := by
  rw [State.bumpIndex, State.setI_i, BitVec.toNat_add, BitVec.toNat_add, BitVec.toNat_setWidth_of_le (by decide)]
  exact Nat.mod_add_mod ..

section
variable {x : Reg} {s t : State}

theorem exec_ldIndStore_baseline (h : exec (.ldIndStore x) s = .next t) : s.PcBaseline t := by
  cases h
  exact .of_pc (by simp)

theorem exec_ldIndStore_frame (h : exec (.ldIndStore x) s = .next t) : s.Frame [.memory, .index] [] t := by
  cases h
  exact (s.storeBlock_bumpIndex_frame _ x).mono (by decide) (List.Subset.refl _)

theorem exec_ldIndStore_i (h : exec (.ldIndStore x) s = .next t) : t.i.toNat = (s.i.toNat + x.toNat + 1) % 65536 := by
  cases h
  rw [State.bumpIndex_i_toNat, State.storeBlock_i, State.advance_i]

/-- The block store puts each register of its block into its cell (R184). -/
theorem exec_ldIndStore_memRead (h : exec (.ldIndStore x) s = .next t) {r : Reg} (hr : r.toNat ≤ x.toNat) :
    t.memRead (s.indexAddr r.toNat) = s.reg r := by
  cases h
  have hcell := s.advance.storeBlock_memRead (n := x.toNat + 1) x.isLt (Nat.lt_succ_of_le hr)
  rwa [regOf_toNat] at hcell

theorem exec_ldIndLoad_baseline (h : exec (.ldIndLoad x) s = .next t) : s.PcBaseline t := by
  cases h
  exact .of_pc (by simp)

theorem exec_ldIndLoad_frame (h : exec (.ldIndLoad x) s = .next t) : s.Frame [.index] (blockRegs x) t := by
  cases h
  exact s.loadBlock_bumpIndex_frame x

theorem exec_ldIndLoad_i (h : exec (.ldIndLoad x) s = .next t) : t.i.toNat = (s.i.toNat + x.toNat + 1) % 65536 := by
  cases h
  rw [State.bumpIndex_i_toNat, State.loadBlock_i, State.advance_i]

/-- The block load puts each cell of its block into its register (R185). -/
theorem exec_ldIndLoad_reg (h : exec (.ldIndLoad x) s = .next t) {r : Reg} (hr : r.toNat ≤ x.toNat) :
    t.reg r = s.memRead (s.indexAddr r.toNat) := by
  cases h
  exact (s.advance.loadBlock_reg x.isLt r).trans (if_pos (Nat.lt_succ_of_le hr))

/-- The block load leaves every register above Vx alone (R185). -/
theorem exec_ldIndLoad_reg_of_lt (h : exec (.ldIndLoad x) s = .next t) {r : Reg} (hr : x.toNat < r.toNat) :
    t.reg r = s.reg r :=
  (exec_ldIndLoad_frame h).1 r (mt mem_blockRegs.1 hr.not_ge)

end

/-- Settles O45: the store by registers, the frame of its cells, and the move of I. -/
theorem blockStoreCopiesRegisters : Obligations.BlockStoreCopiesRegisters :=
  fun _ x _ => ⟨decode_encode (i := .ldIndStore x) rfl, _, rfl, exec_ldIndStore_baseline rfl,
    fun _ => exec_ldIndStore_memRead rfl, fun _ => exec_ldIndStore_memRead_of_out rfl, exec_ldIndStore_i rfl,
    exec_ldIndStore_frame rfl⟩

/-- Settles O46: the load by registers, the move of I, and the frame that names the block's registers. -/
theorem blockLoadCopiesMemory : Obligations.BlockLoadCopiesMemory :=
  fun _ x _ => ⟨decode_encode (i := .ldIndLoad x) rfl, _, rfl, exec_ldIndLoad_baseline rfl,
    fun _ => exec_ldIndLoad_reg rfl, exec_ldIndLoad_i rfl, exec_ldIndLoad_frame rfl⟩

/-- Settles O47: a register of the block is read back from the cell it was stored in, any other is never written. -/
theorem blockStoreThenLoadRestores : Obligations.BlockStoreThenLoadRestores := by
  intro x s
  obtain ⟨t, ht⟩ := exec_total (.ldIndStore x) s
  obtain ⟨u, hu⟩ := exec_total (.ldIndLoad x) (t.setI s.i)
  refine ⟨t, u, ht, hu, fun r => ?_, ?_⟩
  · rcases Nat.lt_or_ge x.toNat r.toNat with hr | hr
    · rw [exec_ldIndLoad_reg_of_lt hu hr, State.setI_reg]
      exact (exec_ldIndStore_frame ht).1 r List.not_mem_nil
    · rw [exec_ldIndLoad_reg hu hr]
      exact exec_ldIndStore_memRead ht hr
  · apply BitVec.eq_of_toNat_eq
    rw [exec_ldIndLoad_i hu, exec_ldIndStore_i ht, State.setI_i]

end Sys2Proof.Machine
end

section
/-! The statements of family 45_keys_timers.md: the key skips, the key wait, DT around a step's tick, and Fx18 in both modes. -/

namespace Sys2Proof.Machine

/-! ### The latch -/

/-- The latch answers for the key of that number, and for no number 16..255 (R200, D12). -/
theorem State.isPressed_iff (s : State) (b : Byte) :
    s.isPressed b = true ↔ ∃ k : Fin 16, k.val = b.toNat ∧ s.keys[k] = true := by
  simp only [State.isPressed, Option.getD_eq_iff, Vector.getElem?_eq_some_iff, Bool.false_eq_true, and_false, or_false]
  constructor
  · exact fun ⟨hlt, hkey⟩ => ⟨⟨b.toNat, hlt⟩, rfl, hkey⟩
  · rintro ⟨k, hk, hkey⟩
    simp only [← hk]
    exact ⟨k.isLt, hkey⟩

/-- The search goes through the keys by rising number, so it stops at the lowest held one (R201, D13). -/
theorem State.firstPressed_eq_some_of_lowest {s : State} {k : Fin 16} (hk : s.keys[k] = true)
    (hlow : ∀ j : Fin 16, j < k → s.keys[j] = false) : s.firstPressed = some (BitVec.ofNat 8 k) := by
  have hfind : (List.range 16).find? ((fun b => s.isPressed b) ∘ BitVec.ofNat 8) = some k.val := by
    refine List.find?_range_eq_some.2 ⟨(s.isPressed_ofNat k).trans hk, List.mem_range.2 k.isLt, fun j hj => ?_⟩
    have hj16 : j < 16 := hj.trans k.isLt
    exact congrArg (!·) ((s.isPressed_ofNat ⟨j, hj16⟩).trans (hlow ⟨j, hj16⟩ hj))
  rw [State.firstPressed, List.find?_map, hfind, Option.map_some]

/-! ### Key skips -/

/-- Settles O50: the condition skipped on is that the latch answers, or does not answer, for the number in Vx. -/
theorem keySkipsReadLatch : Obligations.KeySkipsReadLatch :=
  fun _ x s => ⟨decode_encode (i := .skp x) rfl, decode_encode (i := .sknp x) rfl,
    ⟨_, rfl, s.skipIf_afterSkip_of_iff (s.isPressed_iff (s.reg x)), s.skipIf_frame _⟩,
    ⟨_, rfl, s.skipIf_afterSkip_of_iff (Bool.not_iff_not.trans (s.isPressed_iff (s.reg x)).not), s.skipIf_frame _⟩⟩

/-! ### The key wait -/

/-- Settles O51, by whether a key is held. -/
theorem keyWaitTakesLowestOrRepeats : Obligations.KeyWaitTakesLowestOrRepeats := by
  intro m x s
  refine ⟨decode_encode (i := .ldVxK x) rfl, fun k hk hlow => ?_, fun hnone => ?_⟩
  · refine ⟨_, exec_ldVxK_of_pressed x (State.firstPressed_eq_some_of_lowest hk hlow), .of_pc rfl, ?_, s.setReg_frame ..⟩
    rw [State.setReg_reg_self, BitVec.toNat_ofNat]
    omega
  · exact ⟨_, exec_ldVxK_of_released x (s.firstPressed_eq_none_iff.2 hnone), BitVec.add_sub_cancel s.pc 2, s.setPc_frame _⟩

/-- s after one tick of both timers, nothing else changed. -/
def State.tickTimers (s : State) : State := { s with dt := tick s.dt, st := tick s.st }

/-- The key wait's PC back by 2 undoes the common part's PC on by 2, and leaves the tick (R205). -/
theorem State.advance_setPc_back (s : State) : s.advance.setPc (s.advance.pc - 2) = s.tickTimers := by
  rw [State.advance_pc, BitVec.add_sub_cancel]
  rfl

/-- A core at a key wait, with no key held: its next step is the wait again. -/
structure State.Waiting (s : State) (x : Reg) : Prop where
  running : s.Running
  decoded : decode s.params.fx18 s.fetchWord = some (.ldVxK x)
  released : ∀ key : Fin 16, s.keys[key] = false

/-- A tick of the timers changes nothing the wait depends on. -/
theorem State.Waiting.tickTimers {s : State} {x : Reg} (h : s.Waiting x) : s.tickTimers.Waiting x :=
  ⟨h.running, h.decoded, h.released⟩

theorem State.Waiting.step_eq {s : State} {x : Reg} (h : s.Waiting x) : step s = .next s.tickTimers := by
  rw [step_eq_exec h.running h.decoded, exec_ldVxK_of_released x (s.firstPressed_eq_none_iff.2 h.released),
    s.advance_setPc_back]

theorem runSteps_succ_of_step {s t : State} (h : step s = .next t) (k : Nat) : runSteps (k + 1) s = runSteps k t := by
  rw [runSteps, h]

/-- Any number of steps of a waiting core only ticks its timers, once each step. -/
theorem State.Waiting.runSteps_eq {s : State} {x : Reg} (h : s.Waiting x) (k : Nat) :
    runSteps k s = .next (State.tickTimers^[k] s) := by
  induction k generalizing s with
  | zero => rfl
  | succ k ih => rw [runSteps_succ_of_step h.step_eq, ih h.tickTimers, Function.iterate_succ_apply]

/-- k ticks lower a timer by k, or down to 0 (R27, R102). -/
theorem iterate_tick_toNat (b : Byte) (k : Nat) : (tick^[k] b).toNat = b.toNat - k := by
  induction k with
  | zero => rfl
  | succ k ih => rw [Function.iterate_succ_apply', tick_toNat, ih, Nat.sub_sub]

theorem State.iterate_tickTimers (s : State) (k : Nat) :
    State.tickTimers^[k] s = { s with dt := tick^[k] s.dt, st := tick^[k] s.st } := by
  induction k generalizing s with
  | zero => rfl
  | succ k ih => exact ih s.tickTimers

/-- Settles O52: the run is k ticks of the timers, and a tick writes neither PC nor a register nor memory. -/
theorem keyWaitNeverProceedsAlone : Obligations.KeyWaitNeverProceedsAlone := by
  intro x s k hrun hd hnone
  have hwait : s.Waiting x := ⟨hrun, hd, hnone⟩
  refine ⟨_, hwait.runSteps_eq k, ?_⟩
  rw [s.iterate_tickTimers]
  exact ⟨rfl, rfl, rfl, iterate_tick_toNat s.dt k, iterate_tick_toNat s.st k⟩

/-! ### Timers -/

/-- Settles O53: both start from the state after the tick; the second of the two in sequence ticks the DT that the first set. -/
theorem delayTimerReadAndWrite : Obligations.DelayTimerReadAndWrite := by
  intro m x s
  refine ⟨decode_encode (i := .ldVxDt x) rfl, decode_encode (i := .ldDtVx x) rfl, ?_, ?_, fun y => ?_⟩
  · refine ⟨_, rfl, .of_pc rfl, ?_, s.setReg_frame ..⟩
    rw [State.setReg_reg_self, State.advance_dt, tick_toNat]
  · exact ⟨_, rfl, .of_pc rfl, rfl, s.setDt_frame _⟩
  · refine ⟨_, _, rfl, rfl, ?_⟩
    rw [State.setReg_reg_self, State.advance_dt, tick_toNat, State.setDt_dt, State.advance_reg]

/-- Settles O54, by the mode. -/
theorem soundTimerWriteByMode : Obligations.SoundTimerWriteByMode := by
  intro x s
  refine ⟨decode_encode (i := .ldStVx x) rfl, decode_classF .decodeError x 0x18#8, fun hm => ?_, fun hm => ?_⟩
  · exact ⟨_, exec_ldStVx_of_setSoundTimer x hm, .of_pc rfl, rfl, s.setSt_frame _⟩
  · exact ⟨_, exec_ldStVx_of_decodeError x hm, .of_pc rfl, rfl, s.unknownWord_frame _⟩

end Sys2Proof.Machine
end

section
/-! The statements of family 60_exceptions.md: the host's actions and the invariant, and the stack fault at the step. -/

namespace Sys2Proof.Machine

/-! ### The host's actions -/

/-- reset() lists nothing in memory and records no fault (R250). -/
theorem State.hostReset_inv (s : State) : s.hostReset.Inv :=
  ⟨⟨.nil, nofun⟩, fun _ => ⟨rfl, rfl⟩, nofun, nofun⟩

/-- Bytes stored in memory keep its canonical form, and no other clause of the invariant is about memory. -/
theorem State.Inv.storeBytes {s : State} (hs : s.Inv) (addr : Nat) (bytes : List Byte) : (s.storeBytes addr bytes).Inv := by
  obtain ⟨hwf, hfaults⟩ := hs
  refine ⟨State.storeBytes_wf addr bytes hwf, ?_⟩
  rw [State.storeBytes_eq]
  exact hfaults

/-- A program that loadProgram takes is stored from PROGRAM_BASE, and that is all (R253). -/
theorem eq_storeBytes_of_loadProgram {bytes : List Byte} {s t : State} (h : loadProgram bytes s = .next t) :
    t = s.storeBytes programBase bytes := by
  unfold loadProgram at h
  split at h
  · cases h
    rfl
  · cases h

theorem State.Inv.loadProgram {bytes : List Byte} {s t : State} (hs : s.Inv) (h : loadProgram bytes s = .next t) : t.Inv :=
  eq_storeBytes_of_loadProgram h ▸ hs.storeBytes programBase bytes

/-- No clause of the invariant is about the framebuffer. -/
theorem State.Inv.hostClear {s : State} (hs : s.Inv) : s.hostClear.Inv := hs

/-- No clause of the invariant is about the latch. -/
theorem State.Inv.setKey {s : State} (hs : s.Inv) (k : Fin 16) : (s.setKey k).Inv := hs

theorem State.Inv.clearKey {s : State} (hs : s.Inv) (k : Fin 16) : (s.clearKey k).Inv := hs

/-- Settles O16, action by action; the boot sequence loads into the state that reset() and clear() leave. -/
theorem hostActionsKeepInvariant : Obligations.HostActionsKeepInvariant :=
  fun s hs => ⟨s.hostReset_inv, hs.hostClear, hs.setKey, hs.clearKey, fun _ _ => hs.loadProgram,
    fun _ _ => s.hostReset_inv.hostClear.loadProgram⟩

/-! ### The stack fault at the step

The word recorded is the fetched one, since a word that decodes is its instruction's encoding (R86, R224). -/

theorem step_call_of_full {s : State} {nnn : Addr} (hrun : s.Running)
    (hd : decode s.params.fx18 s.fetchWord = some (.call nnn)) (hfull : s.sp.val = 16) :
    step s = .next (s.raiseFault .stackOverflow s.fetchWord) := by
  rw [step_eq_exec hrun hd, exec_call_of_full nnn hfull, (encode_of_decode hd).2]

theorem step_ret_of_empty {s : State} (hrun : s.Running) (hd : decode s.params.fx18 s.fetchWord = some .ret)
    (hempty : s.sp.val = 0) : step s = .next (s.raiseFault .stackUnderflow s.fetchWord) := by
  rw [step_eq_exec hrun hd, exec_ret_of_empty hempty, (encode_of_decode hd).2]

/-- Settles O31, by the cause; a recorded cause is what halts the core. -/
theorem stackFaultIsPreciseAndHalts : Obligations.StackFaultIsPreciseAndHalts := by
  intro s cause hrun hcause
  rcases hcause with ⟨rfl, hfull, nnn, hd⟩ | ⟨rfl, hempty, hd⟩
  · exact ⟨_, step_call_of_full hrun hd hfull, rfl, step_eq_halted nofun⟩
  · exact ⟨_, step_ret_of_empty hrun hd hempty, rfl, step_eq_halted nofun⟩

end Sys2Proof.Machine
end

section
/-! The statements of family 70_reset_and_hazards.md: what reset(), clear() and loadProgram write, and what they leave alone. -/

namespace Sys2Proof.Machine

/-! ### loadProgram -/

section StoreBytes
variable (s : State) {addr : Nat} {bytes : List Byte} (hfit : addr + bytes.length ≤ memSize)
include hfit

theorem State.storeBytes_memRead_of_lt {k : Nat} (hk : k < bytes.length) :
    (s.storeBytes addr bytes).memRead (addr + k) = bytes[k] := by
  rw [s.storeBytes_memRead addr bytes _ hfit (by omega), if_pos (Nat.le_add_right ..), Nat.add_sub_cancel_left,
    List.getElem?_eq_getElem hk, Option.getD_some]

theorem State.storeBytes_memRead_of_out {a : Nat} (ha : a < memSize) (hout : a < addr ∨ addr + bytes.length ≤ a) :
    (s.storeBytes addr bytes).memRead a = s.memRead a := by
  rw [s.storeBytes_memRead addr bytes a hfit ha]
  rcases hout with hbelow | habove
  · rw [if_neg (Nat.not_le.2 hbelow)]
  · rw [if_pos (by omega), List.getElem?_eq_none (by omega), Option.getD_none]

end StoreBytes

theorem loadProgram_of_le {bytes : List Byte} (s : State) (h : bytes.length ≤ maxProgramBytes) :
    loadProgram bytes s = .next (s.storeBytes programBase bytes) := if_pos h

theorem loadProgram_of_gt {bytes : List Byte} (s : State) (h : maxProgramBytes < bytes.length) :
    loadProgram bytes s = .refused (.programTooLong bytes.length) := if_neg (Nat.not_le.2 h)

/-- The longest program that loadProgram takes ends at the top of memory (R253). -/
theorem programBase_add_length_le {bytes : List Byte} (h : bytes.length ≤ maxProgramBytes) :
    programBase + bytes.length ≤ memSize := Nat.add_le_add_left h programBase

/-- Settles O58, by the length: a program that fits is stored below the top of memory, so no cell is written twice. -/
theorem loadProgramCopiesOrRefuses : Obligations.LoadProgramCopiesOrRefuses := by
  refine fun bytes s => ⟨fun h => ?_, loadProgram_of_gt s⟩
  have hfit := programBase_add_length_le h
  exact ⟨_, loadProgram_of_le s h, s.storeBytes_eq .., fun k hk => s.storeBytes_memRead_of_lt hfit hk,
    fun a ha => s.storeBytes_memRead_of_out hfit ha⟩

/-! ### reset() and clear() -/

/-- reset() lists no cell, so each reads as its FONT byte or zero (R32, R33). -/
theorem State.hostReset_memRead (s : State) {a : Nat} (ha : a < memSize) :
    s.hostReset.memRead a = Memory.unlisted s.params.font a :=
  congrArg (Memory.read s.params.font []) (Nat.mod_eq_of_lt ha)

theorem Memory.unlisted_of_lt (font : Font) {a : Nat} (h : a < 80) : Memory.unlisted font a = font[a] := by
  rw [Memory.unlisted, Vector.getElem?_eq_getElem h, Option.getD_some]

theorem Memory.unlisted_of_ge (font : Font) {a : Nat} (h : 80 ≤ a) : Memory.unlisted font a = 0 := by
  rw [Memory.unlisted, Vector.getElem?_eq_none h, Option.getD_none]

/-- Settles O55: memory by its two regions; every other value is a field that reset() sets. -/
theorem resetLeavesResetValues : Obligations.ResetLeavesResetValues := by
  refine fun s => ⟨fun a hfont => ?_, fun a habove ha => ?_, fun r => Vector.getElem_replicate _, rfl, rfl, rfl,
    fun k => Vector.getElem_replicate _, rfl, rfl, rfl, rfl, rfl⟩
  · rw [s.hostReset_memRead (by rw [memSize]; omega), Memory.unlisted_of_lt _ hfont]
  · rw [s.hostReset_memRead ha, Memory.unlisted_of_ge _ habove]

/-- Settles O57: reset() takes these four fields from the state it is given, and clear() sets the framebuffer alone. -/
theorem resetKeepsDisplayLatchAndReports : Obligations.ResetKeepsDisplayLatchAndReports :=
  fun _ => ⟨rfl, rfl, rfl, rfl, Framebuffer.blank_pixel, rfl⟩

end Sys2Proof.Machine
end
